-- ==== Sys2Proof/Word.lean ====
section
/-! DEFINITION. The words and numbers of the NH448, and the tables (fixed-length vectors) its records are kept in. -/

namespace Sys2Proof

/-- One octet of a control port, a control frame or a store page. -/
abbrev Byte := BitVec 8
/-- A CRC-16 value (R178). -/
abbrev Word16 := BitVec 16

/-- Tenants T0 to T3 (00 1.4). -/
abbrev Tenant := Fin 4
/-- Zones Z0 to Z47. -/
abbrev Zone := Fin 48
/-- Sectors S0 to S5. -/
abbrev Sector := Fin 6
/-- Fronthaul ports F0 to F11. -/
abbrev FPort := Fin 12
/-- Chain positions 1 to 4; position n is held as n - 1 (`Sys2Proof.Machine.posNumber`). -/
abbrev Pos := Fin 4
/-- Store pages P0 to P5. -/
abbrev PageNo := Fin 6
/-- Scene slots 0 to 3. -/
abbrev Slot := Fin 4

/-- The entry of a table at an index. -/
def tget {α : Type} {n : Nat} (v : Vector α n) (i : Fin n) : α := v[i]

/-- A table with one entry replaced. -/
def tset {α : Type} {n : Nat} (v : Vector α n) (i : Fin n) (x : α) : Vector α n := v.set i x

/-- A table with one entry changed by a function. -/
def tmod {α : Type} {n : Nat} (v : Vector α n) (i : Fin n) (f : α → α) : Vector α n := tset v i (f (tget v i))

/-- A table with every entry computed from its index and its old value. -/
def tmapIdx {α β : Type} {n : Nat} (f : Fin n → α → β) (v : Vector α n) : Vector β n :=
  ⟨⟨(List.finRange n).map fun i => f i (tget v i)⟩, by simp⟩

end Sys2Proof
end

