-- ==== Sys2Proof/Syntax.lean ====
section
/-! DEFINITION. The commands of the block: one constructor of `Instr` per row of spec/opcode_table.json, and the
operands they carry. -/

namespace Sys2Proof

/-- The five control ports (R162). -/
inductive Port where
  | tenant (t : Tenant)
  | venue
deriving DecidableEq, Repr

/-- One rising edge of a port's clock while select is low: the level of the command/parameter line (high for a
parameter) and the bit on data in (R162). -/
structure LineBit where
  param : Bool
  din : Bool
deriving DecidableEq, Repr

/-- What a controller clocks into a port with the command/parameter line high: whole parameter octets, in order, and
then the first bits of an octet that is not yet complete (R162, R166, R169). While the port is READING, each octet
clocks out the next octet of the reply (R163). -/
structure Clocked where
  params : List Byte
  tail : List LineBit
deriving DecidableEq, Repr

/-- How much of a command reaches the port in one burst. A command may be broken at any point and go on after a pause
(R171), so a burst either begins with the row's command-code octet or brings further octets of it. -/
inductive Burst where
  | code (rest : Clocked)
  | more (rest : Clocked)
deriving DecidableEq, Repr

/-- Whole octets and no begun octet. -/
abbrev Clocked.whole (params : List Byte) : Clocked := ⟨params, []⟩
/-- A command sent whole: its code and its parameter octets. -/
abbrev Burst.whole (params : List Byte) : Burst := .code ⟨params, []⟩

/-- One character from the fibre: the line coding keeps framing characters apart from data octets (R101). -/
inductive LineChar where
  | framing (b : Byte)
  | data (b : Byte)
deriving DecidableEq, Repr

/-- The commands of the command code table (11.5). -/
inductive Command where
  | setWindow
  | writeTargets
  | writeAlternates
  | requestMove
  | cancelMove
  | setLevel
  | storeScene
  | writeScene
  | recallScene
  | clearScene
  | setSpreading
  | readPlan
  | readGrants
  | readLoads
  | readFault
  | readStatus
  | admitTenant
  | suspendTenant
  | resumeTenant
  | retireTenant
  | setQuota
  | setLimit
  | writeLimits
  | pinZone
  | unpinZone
  | setVenueMode
  | setStandbyClasses
  | setWake
  | setDerate
  | setEscalation
  | setSupervision
  | setRamp
  | setCensus
  | writeWeights
  | readWeights
  | isolateRemote
  | restoreRemote
  | readZones
  | writeStorePage
  | lockStorePage
  | readStorePage
  | softReset
deriving DecidableEq, Repr

/-- The commands and events of the part, one constructor per row of spec/opcode_table.json, in its order. A command
row takes the port and the burst; an element row takes the port and what is clocked with the line high; a fronthaul
event takes its port; a carrier event its tenant and sector. -/
inductive Instr where
  /-- SET_WINDOW (R168). -/
  | setWindow (p : Port) (b : Burst)
  /-- WRITE_TARGETS (R17). -/
  | writeTargets (p : Port) (b : Burst)
  /-- WRITE_TARGETS_ELEMENT (R17). -/
  | writeTargetsElement (p : Port) (c : Clocked)
  /-- WRITE_ALTERNATES (R19). -/
  | writeAlternates (p : Port) (b : Burst)
  /-- WRITE_ALTERNATES_ELEMENT (R19). -/
  | writeAlternatesElement (p : Port) (c : Clocked)
  /-- REQUEST_MOVE (R18). -/
  | requestMove (p : Port) (b : Burst)
  /-- CANCEL_MOVE (R61). -/
  | cancelMove (p : Port) (b : Burst)
  /-- SET_LEVEL (R7). -/
  | setLevel (p : Port) (b : Burst)
  /-- STORE_SCENE (R68). -/
  | storeScene (p : Port) (b : Burst)
  /-- WRITE_SCENE (R69). -/
  | writeScene (p : Port) (b : Burst)
  /-- WRITE_SCENE_ELEMENT (R69). -/
  | writeSceneElement (p : Port) (c : Clocked)
  /-- RECALL_SCENE (R72). -/
  | recallScene (p : Port) (b : Burst)
  /-- CLEAR_SCENE (R71). -/
  | clearScene (p : Port) (b : Burst)
  /-- SET_SPREADING (R89). -/
  | setSpreading (p : Port) (b : Burst)
  /-- READ_PLAN (R22). -/
  | readPlan (p : Port) (b : Burst)
  /-- READ_PLAN_ELEMENT (R22). -/
  | readPlanElement (p : Port) (c : Clocked)
  /-- READ_GRANTS (R40). -/
  | readGrants (p : Port) (b : Burst)
  /-- READ_GRANTS_ELEMENT (R40). -/
  | readGrantsElement (p : Port) (c : Clocked)
  /-- READ_LOADS (R97). -/
  | readLoads (p : Port) (b : Burst)
  /-- READ_LOADS_ELEMENT (R97). -/
  | readLoadsElement (p : Port) (c : Clocked)
  /-- READ_FAULT (R146). -/
  | readFault (p : Port) (b : Burst)
  /-- READ_STATUS (R176). -/
  | readStatus (p : Port) (b : Burst)
  /-- UNKNOWN_COMMAND (R164). -/
  | unknownCommand (p : Port) (code : Byte) (c : Clocked)
  /-- ADMIT_TENANT (R2). -/
  | admitTenant (p : Port) (b : Burst)
  /-- SUSPEND_TENANT (R4). -/
  | suspendTenant (p : Port) (b : Burst)
  /-- RESUME_TENANT (R5). -/
  | resumeTenant (p : Port) (b : Burst)
  /-- RETIRE_TENANT (R6). -/
  | retireTenant (p : Port) (b : Burst)
  /-- SET_QUOTA (R3). -/
  | setQuota (p : Port) (b : Burst)
  /-- SET_LIMIT (R10). -/
  | setLimit (p : Port) (b : Burst)
  /-- WRITE_LIMITS (R11). -/
  | writeLimits (p : Port) (b : Burst)
  /-- WRITE_LIMITS_ELEMENT (R11). -/
  | writeLimitsElement (p : Port) (c : Clocked)
  /-- PIN_ZONE (R12). -/
  | pinZone (p : Port) (b : Burst)
  /-- UNPIN_ZONE (R13). -/
  | unpinZone (p : Port) (b : Burst)
  /-- SET_VENUE_MODE (R23). -/
  | setVenueMode (p : Port) (b : Burst)
  /-- SET_STANDBY_CLASSES (R24). -/
  | setStandbyClasses (p : Port) (b : Burst)
  /-- SET_WAKE (R24). -/
  | setWake (p : Port) (b : Burst)
  /-- SET_DERATE (R126). -/
  | setDerate (p : Port) (b : Burst)
  /-- SET_ESCALATION (R128). -/
  | setEscalation (p : Port) (b : Burst)
  /-- SET_SUPERVISION (R118). -/
  | setSupervision (p : Port) (b : Burst)
  /-- SET_RAMP (R56). -/
  | setRamp (p : Port) (b : Burst)
  /-- SET_CENSUS (R81). -/
  | setCensus (p : Port) (b : Burst)
  /-- WRITE_WEIGHTS (R79). -/
  | writeWeights (p : Port) (b : Burst)
  /-- WRITE_WEIGHTS_ELEMENT (R79). -/
  | writeWeightsElement (p : Port) (c : Clocked)
  /-- READ_WEIGHTS (R80). -/
  | readWeights (p : Port) (b : Burst)
  /-- READ_WEIGHTS_ELEMENT (R80). -/
  | readWeightsElement (p : Port) (c : Clocked)
  /-- ISOLATE_REMOTE (R132). -/
  | isolateRemote (p : Port) (b : Burst)
  /-- RESTORE_REMOTE (R133). -/
  | restoreRemote (p : Port) (b : Burst)
  /-- READ_ZONES (R41). -/
  | readZones (p : Port) (b : Burst)
  /-- READ_ZONES_ELEMENT (R41). -/
  | readZonesElement (p : Port) (c : Clocked)
  /-- WRITE_STORE_PAGE (R153). -/
  | writeStorePage (p : Port) (b : Burst)
  /-- LOCK_STORE_PAGE (R156). -/
  | lockStorePage (p : Port) (b : Burst)
  /-- READ_STORE_PAGE (R157). -/
  | readStorePage (p : Port) (b : Burst)
  /-- SOFT_RESET (R159). -/
  | softReset (p : Port) (b : Burst)
  /-- HARDWARE_RESET (R158). -/
  | hardwareReset
  /-- START_UP (R161). -/
  | startUp
  /-- SELECT_RISE (R171). -/
  | selectRise (p : Port)
  /-- RAMP_TIMER_EXPIRY (R55). -/
  | rampTimerExpiry
  /-- CENSUS_TIMER_EXPIRY (R82). -/
  | censusTimerExpiry
  /-- POLL_TIMER_EXPIRY (R105). -/
  | pollTimerExpiry
  /-- POLL_SENT (R107). -/
  | pollSent (f : FPort)
  /-- FRAME_RECEIVED (R104). -/
  | frameReceived (f : FPort) (chars : List LineChar)
  /-- REPLY_TIMER_EXPIRY (R107). -/
  | replyTimerExpiry (f : FPort)
  /-- FRAME_TRANSMITTED (R111). -/
  | frameTransmitted (f : FPort)
  /-- LOSS_OF_LOCK (R100). -/
  | lossOfLock (f : FPort)
  /-- RETURN_OF_LOCK (R100). -/
  | returnOfLock (f : FPort)
  /-- CARRIER_LOST (R8). -/
  | carrierLost (t : Tenant) (sec : Sector)
  /-- CARRIER_BACK (R8). -/
  | carrierBack (t : Tenant) (sec : Sector)
  /-- STORE_WRITE_COMPLETION (R154). -/
  | storeWriteCompletion
  /-- STORE_LOCK_COMPLETION (R156). -/
  | storeLockCompletion
  /-- ONE_SECOND_TIMER_EXPIRY (R141). -/
  | oneSecondTimerExpiry
  /-- SELECT_FALL (R171). -/
  | selectFall (p : Port)
  /-- START_PATTERN (R103). -/
  | startPattern (f : FPort)
  /-- BAD_LENGTH (R103). -/
  | badLength (f : FPort) (length : Byte)
deriving DecidableEq, Repr

end Sys2Proof
end

