-- ==== Sys2Proof/Decode.lean ====
section
/-! DEFINITION. The commands that a word of the table's bits spells. No row of spec/opcode_table.json gives bits (log 23):
a command of the NH448 is an event, or octets on a control port (`Sys2Proof.Machine.commandOf`). -/

namespace Sys2Proof

/-- Log 23: no row of the table gives bits, so no word spells a command. -/
def decodeTableWord (_nbits _w : Nat) : Option Instr := none

end Sys2Proof
end

