-- ==== Sys2Proof/Config.lean ====
section
/-! DEFINITION. What an implementation fixes and the spec does not: the FREE VALUES (opaque, no body) and the values
the model names for the state at reset. -/

namespace Sys2Proof

/-- FREE VALUE (R158, log 9): whether octet `i` of an interrupted store page holds its new value, at the `n`-th
interruption. "Each of the 33 octets of its records and its lock octet holds its old value or its new value,
independently of the others." -/
opaque Config.freeOctetIsNew : Nat → Nat → Bool

/-- FREE VALUE (R158, log 9): by how much, less 1, the integrity word of an interrupted page differs from the CRC of
the octets held, at the `n`-th interruption (taken modulo 65535, so every value that does not match is possible). -/
opaque Config.freeIntegrityOffset : Nat → Nat

/-- DESIGN CHOICE (log 6): every octet of a factory-fresh store page. -/
def Config.factoryOctet : Byte := 0xFF
/-- DESIGN CHOICE (log 6): the integrity word of a factory-fresh store page; it does not match its octets. -/
def Config.factoryIntegrity : Word16 := 0
/-- DESIGN CHOICE (log 5): whether a port's select line is low at reset. -/
def Config.selectLowAtReset : Bool := false
/-- DESIGN CHOICE (log 4): whether an optical receiver or a Carrier Intake link holds lock at reset. -/
def Config.lockAtReset : Bool := false

end Sys2Proof
end

