-- ==== Sys2Proof/Machine/State.lean ====
section
/-! DEFINITION. The state of the block as plain data, its state after reset, and the reasons a step can stop. Each
record follows the field table of its chapter. -/

namespace Sys2Proof.Machine

/-! ### Names -/

/-- R1. -/
inductive TenantState where
  | vacant | active | suspended
deriving DecidableEq, Repr

/-- Zone classes (11.2). -/
inductive ZoneClass where
  | bowl | concourse | suite | service
deriving DecidableEq, Repr

/-- Alarm classes, in the order of R125. -/
inductive AlarmClass where
  | heat | mismatch | supply | uplinkHot
deriving DecidableEq, Repr

/-- R23. -/
inductive VenueMode where
  | event | standby
deriving DecidableEq, Repr

/-- R119. -/
inductive RemoteState where
  | unbound | searching | alive | degraded | lost | isolated
deriving DecidableEq, Repr

/-- R119: the isolation cause. -/
inductive IsolationCause where
  | venue
  | overdrive
  | escalation (c : AlarmClass)
deriving DecidableEq, Repr

/-- The ten result codes of R174, in the order of their codes (11.2). -/
inductive Result where
  | none | ok | clamped | skipped | incomplete | busy | range | rights | state | unknown
deriving DecidableEq, Repr

/-- What a plan cell serves or is to serve: a sector, or DARK (00 1.4). -/
inductive Dest where
  | dark
  | sector (s : Sector)
deriving DecidableEq, Repr

/-- R43: the source of a target, and the origin of a move. -/
inductive Origin where
  | tenant | scene | balancer
deriving DecidableEq, Repr

/-- R42. -/
inductive Direction where
  | forward | reverse
deriving DecidableEq, Repr

/-- R42: whether a move holds a ramp slot. -/
inductive MoveState where
  | waiting | ramping
deriving DecidableEq, Repr

/-- R67: one entry of a scene. -/
inductive SceneEntry where
  | keep
  | dest (d : Dest)
deriving DecidableEq, Repr

/-- R85, R86: the overload state of a sector. `falling k n` is FALLING(k) holding the overload count n. -/
inductive Overload where
  | calm
  | rising (k : Nat)
  | overloaded (n : Nat)
  | falling (k : Nat) (n : Nat)
deriving DecidableEq, Repr

/-! ### Tenants, zones and the plan (chapters 1 to 5) -/

/-- R89, R90: the spreading settings. -/
structure Spreading where
  enable : Bool
  repeats : Bool
  high : Nat
  low : Nat
  debounce : Nat
  longCount : Nat
  holdOff : Nat
deriving DecidableEq, Repr

/-- The census state of one sector (chapter 5 table). -/
structure SectorCensus where
  load : Nat
  overload : Overload
  proposal : Option (Zone × Sector)
deriving DecidableEq, Repr

/-- A tenant record (1.1). The log cursor stands in `State.tenantReaders`. -/
structure TenantRec where
  state : TenantState
  quota : Nat
  sectorCount : Nat
  levels : Vector Nat 6
  presence : Vector Bool 6
  scenes : Vector (Option (Vector SceneEntry 48)) 4
  spreading : Spreading
  census : Vector SectorCensus 6
deriving DecidableEq, Repr

/-- A binding: fronthaul port and chain position (R9). -/
structure Binding where
  port : FPort
  pos : Pos
deriving DecidableEq, Repr

/-- A zone record (1.4) and the zone's effective limit (R25, R33). -/
structure ZoneRec where
  cls : ZoneClass
  ceiling : Nat
  binding : Option Binding
  live : Nat
  pinned : Bool
  effLimit : Nat
deriving DecidableEq, Repr

/-- A plan cell (1.6), with the recorded source of its target (R43) and the allotment's results (R33). Its move stands
in `State.moves`. -/
structure Cell where
  home : Dest
  target : Dest
  source : Origin
  alternates : List Sector
  holdOff : Nat
  occupancy : Nat
  request : Nat
  grant : Nat
  gain : Nat
deriving DecidableEq, Repr

/-- A move (R42). -/
structure Move where
  tenant : Tenant
  zone : Zone
  src : Dest
  dst : Dest
  weight : Nat
  dir : Direction
  state : MoveState
  origin : Origin
deriving DecidableEq, Repr

/-- A timer of the part: whether it runs, and the period that ends at the expiry already due, in the timer's own unit
(R56, R81, R118: a setting changed before an expiry applies to the periods after it). -/
structure Timer where
  running : Bool
  due : Nat
deriving DecidableEq, Repr

/-! ### Fronthaul (chapters 6 and 7) -/

/-- A frame of a transmit queue (R112). -/
inductive Frame where
  | set (pos : Pos) (limit : Nat) (mute : Bool)
  | chainMute
deriving DecidableEq, Repr

/-- R103: the receiver. `collecting octets` holds the octets taken since the start pattern, the length octet first. -/
inductive Receiver where
  | seeking
  | collecting (octets : List Byte)
deriving DecidableEq, Repr

/-- The frame in transmission (chapter 6 table). -/
inductive Sending where
  | nothing
  | queued
  | poll
deriving DecidableEq, Repr

/-- Where a poll round stands (R105 to R110). `gap n`: n frames of the gap are still to be sent before the POLL of the
round's position. `poll`: that POLL is being sent. `window open`: its reply window is open; `answerable` tells whether
a STATUS can still close it as a reply (R109). -/
inductive RoundPhase where
  | gap (left : Nat)
  | poll
  | window (answerable : Bool)
deriving DecidableEq, Repr

/-- A poll round in progress: the position whose turn it is, its phase, and the results so far (true for a reply). -/
structure Round where
  pos : Pos
  phase : RoundPhase
  results : List (Pos × Bool)
deriving DecidableEq, Repr

/-- A Link Controller (chapter 6 table). `lineOut` is the model's own record of the characters of the last whole frame
sent (log 12). -/
structure LinkRec where
  lockCond : Bool
  locked : Bool
  rx : Receiver
  afterC3 : Bool
  queue : List Frame
  sending : Sending
  round : Option Round
  lineOut : List LineChar
deriving DecidableEq, Repr

/-- R119: one alarm class of one remote. -/
structure AlarmRec where
  active : Bool
  onset : Nat
  clearing : Nat
  escalation : Nat
deriving DecidableEq, Repr

/-- A remote record (R119). -/
structure RemoteRec where
  state : RemoteState
  cause : Option IsolationCause
  missCount : Nat
  goodCount : Nat
  alarms : Vector AlarmRec 4
  overdrive : Nat
  lastTemp : Byte
  lastOutput : Nat
  lastApplied : Nat
  lastMute : Byte
  sentLimit : Nat
  sentMute : Bool
  setOwed : Bool
  unreachable : Bool
  silentReported : Bool
  lostThisRound : Bool
  behindBreak : Bool
deriving DecidableEq, Repr

/-- The six fields of a STATUS as received (R102, R179). -/
structure Status where
  flags : Byte
  temp : Byte
  output : Nat
  applied : Nat
  mute : Byte
  codes : Vector (Fin 16) 4
deriving DecidableEq, Repr

/-! ### Fault Log (chapter 8) -/

/-- The entry kinds of R142, in the order of their codes (11.3). -/
inductive LogKind where
  | remoteSilent | remoteLost | chainBreak | portDown | remoteBack | alarmOn | alarmOff | autoIsolated | overdrive
  | sectorSaturated | carrierLost | carrierBack | storePageInvalid | venueWake
deriving DecidableEq, Repr

/-- R142. -/
inductive Visibility where
  | venue
  | all
  | tenant (t : Tenant)
deriving DecidableEq, Repr

/-- A log entry (R142); a field its kind does not use is absent. -/
structure Entry where
  kind : LogKind
  time : BitVec 32
  vis : Visibility
  zone : Option Zone := none
  port : Option FPort := none
  pos : Option Pos := none
  tenant : Option Tenant := none
  sector : Option Sector := none
  alarm : Option AlarmClass := none
  page : Option PageNo := none
  count : Option Nat := none
deriving DecidableEq, Repr

/-- A reader's cursor and lost count (R145). The cursor is the number of log entries in front of it, so a cursor equal
to the length of the log stands at "after newest". -/
structure Reader where
  cursor : Nat
  lost : Nat
deriving DecidableEq, Repr

/-! ### Limit Store (chapter 9) -/

/-- A store page as it is stored (R151, R178): the 32 record octets and the lock octet, and the integrity word. -/
structure Page where
  octets : Vector Byte 33
  integrity : Word16
deriving DecidableEq, Repr

/-- R152: the store operation in progress. -/
inductive StoreOp where
  | write (p : PageNo) (records : Vector Byte 32)
  | lock (p : PageNo)
deriving DecidableEq, Repr

/-! ### Control ports (chapter 10) -/

/-- Where the elements of a streamed write go (R169). -/
inductive WriteTo where
  | targets
  | alternates
  | scene (slot : Slot)
  | limits
  | weights (entry : Fin 16)
deriving DecidableEq, Repr

/-- What a read clocks out (R167, R170). -/
inductive ReadFrom where
  | plan (t : Tenant)
  | grants (t : Tenant)
  | zones
  | loads (t : Tenant) (sec : Sector)
  | weights (entry : Fin 16)
  | reply (octets : List Byte)
deriving DecidableEq, Repr

/-- The command in progress on a port (R163). `leading c`: the code of `c` has been taken and its leading parameter is
awaited (R169, R170). `reading r held pos`: `held` is the element taken at its first octet, `pos` the next octet. -/
inductive Progress where
  | idle
  | collecting (c : Command) (octets : List Byte)
  | leading (c : Command)
  | streaming (w : WriteTo) (part : List Byte)
  | reading (r : ReadFrom) (held : Option (List Byte)) (pos : Nat)
deriving DecidableEq, Repr

/-- A control port (chapter 10 table). `dataOut` is the model's own record of the octets data out presented during the
last command on the port (log 12). -/
structure PortRec where
  selectLow : Bool
  armed : Bool
  assembly : List LineBit
  cmd : Progress
  first : Zone
  last : Zone
  pointer : Zone
  lastCode : Option Byte
  result : Result
  log : Bool
  movesIdle : Bool
  storeDone : Bool
  dataOut : List Byte
deriving DecidableEq, Repr

/-! ### The whole part -/

/-- The state of the NH448: every record of its thirteen blocks, the outside conditions its rules read (optical and
carrier lock, the select lines), the counter of the free values, and the commands that wait. -/
structure State where
  starting : Bool
  ports : Vector PortRec 5
  tenants : Vector TenantRec 4
  carrierLock : Vector (Vector Bool 6) 4
  zones : Vector ZoneRec 48
  cells : Vector (Vector Cell 4) 48
  venueMode : VenueMode
  standbyDark : Vector Bool 4
  moves : List Move
  rampTimer : Timer
  rampTick : Nat
  rampStep : Nat
  admitPos : Tenant
  weights : Vector Nat 16
  censusInterval : Nat
  censusTimer : Timer
  wakeThreshold : Nat
  wakeDebounce : Nat
  wakeCount : Nat
  links : Vector LinkRec 12
  pollInterval : Nat
  pollTimer : Timer
  remotes : Vector RemoteRec 48
  lossThreshold : Nat
  recoveryCount : Nat
  alarmDebounce : Nat
  derate : Vector Nat 4
  escalation : Vector Nat 4
  log : List Entry
  seconds : BitVec 32
  venueReader : Reader
  tenantReaders : Vector (Option Reader) 4
  pages : Vector Page 6
  storeOp : Option StoreOp
  freeCount : Nat
  pending : List Instr
deriving DecidableEq, Repr

/-- The reasons a step could stop with a fault: none. The spec gives every command an effect in every state (a refused
command sets a result, R174). Nothing raises one; safe. -/
inductive Fault where
deriving DecidableEq, Repr

/-- The reasons a step is refused. -/
inductive Refusal where
  /-- No meaning yet for the command of this mnemonic; raised by no arm of this model. Safe. -/
  | notModelled (mnemonic : String)
deriving DecidableEq, Repr

/-! ### The state after reset -/

/-- R90: the admission values of the spreading settings. While a tenant is VACANT it has no settings; the model holds
these values then (log 19). -/
def Spreading.admission : Spreading where
  enable := false
  repeats := false
  high := 4000
  low := 3000
  debounce := 3
  longCount := 30
  holdOff := 6

/-- R84: a sector's census state at admission. -/
def SectorCensus.admission : SectorCensus where
  load := 0
  overload := .calm
  proposal := none

/-- R1: a VACANT tenant record. -/
def TenantRec.vacant : TenantRec where
  state := .vacant
  quota := 0
  sectorCount := 0
  levels := Vector.replicate 6 0
  presence := Vector.replicate 6 false
  scenes := Vector.replicate 4 none
  spreading := Spreading.admission
  census := Vector.replicate 6 SectorCensus.admission

/-- R14, R33: a plan cell at start-up. -/
def Cell.dark : Cell where
  home := .dark
  target := .dark
  source := .tenant
  alternates := []
  holdOff := 0
  occupancy := 0
  request := 0
  grant := 0
  gain := 0

/-- R160: a zone of an INVALID page at start-up. -/
def ZoneRec.ofInvalidPage : ZoneRec where
  cls := .service
  ceiling := 0
  binding := none
  live := 0
  pinned := false
  effLimit := 0

/-- R140: one alarm class at start-up. -/
def AlarmRec.clear : AlarmRec where
  active := false
  onset := 0
  clearing := 0
  escalation := 0

/-- R120 step 1, R140: a remote record without a binding. -/
def RemoteRec.unbound : RemoteRec where
  state := .unbound
  cause := none
  missCount := 0
  goodCount := 0
  alarms := Vector.replicate 4 AlarmRec.clear
  overdrive := 0
  lastTemp := 0
  lastOutput := 0
  lastApplied := 0
  lastMute := 0
  sentLimit := 0
  sentMute := true
  setOwed := false
  unreachable := false
  silentReported := false
  lostThisRound := false
  behindBreak := false

/-- R117: a Link Controller at the end of start-up, on a port whose receiver holds no lock. -/
def LinkRec.huntingAtStartUp : LinkRec where
  lockCond := Config.lockAtReset
  locked := Config.lockAtReset
  rx := .seeking
  afterC3 := false
  queue := [.chainMute]
  sending := .nothing
  round := none
  lineOut := []

/-- R177: a control port at the end of start-up; the select level is log 5. -/
def PortRec.atStartUp : PortRec where
  selectLow := Config.selectLowAtReset
  armed := false
  assembly := []
  cmd := .idle
  first := 0
  last := 47
  pointer := 0
  lastCode := none
  result := .none
  log := false
  movesIdle := false
  storeDone := false
  dataOut := []

/-- R151, log 6: a store page as it leaves the factory. -/
def Page.factory : Page where
  octets := Vector.replicate 33 Config.factoryOctet
  integrity := Config.factoryIntegrity

/-- R160: the entry start-up appends for an INVALID page. -/
def Entry.pageInvalid (time : BitVec 32) (p : PageNo) : Entry :=
  { kind := .storePageInvalid, time := time, vis := .venue, page := some p }

/-- The machine right after reset: the end of the start-up that follows the power-up of a factory-fresh part (R161;
log 7). -/
def State.reset : State where
  starting := false
  ports := #v[PortRec.atStartUp, PortRec.atStartUp, PortRec.atStartUp, PortRec.atStartUp,
    { PortRec.atStartUp with log := true }]
  tenants := Vector.replicate 4 TenantRec.vacant
  carrierLock := Vector.replicate 4 (Vector.replicate 6 Config.lockAtReset)
  zones := Vector.replicate 48 ZoneRec.ofInvalidPage
  cells := Vector.replicate 48 (Vector.replicate 4 Cell.dark)
  venueMode := .event
  standbyDark := Vector.replicate 4 false
  moves := []
  rampTimer := ⟨true, 10⟩
  rampTick := 10
  rampStep := 4
  admitPos := 3
  weights := #v[0, 17, 34, 51, 68, 85, 102, 119, 136, 153, 170, 187, 204, 221, 238, 255]
  censusInterval := 10
  censusTimer := ⟨true, 10⟩
  wakeThreshold := 0
  wakeDebounce := 3
  wakeCount := 0
  links := Vector.replicate 12 LinkRec.huntingAtStartUp
  pollInterval := 50
  pollTimer := ⟨true, 50⟩
  remotes := Vector.replicate 48 RemoteRec.unbound
  lossThreshold := 4
  recoveryCount := 2
  alarmDebounce := 2
  derate := #v[16, 8, 32, 32]
  escalation := #v[120, 0, 0, 0]
  log := [.pageInvalid 0 0, .pageInvalid 0 1, .pageInvalid 0 2, .pageInvalid 0 3, .pageInvalid 0 4, .pageInvalid 0 5]
  seconds := 0
  venueReader := ⟨0, 0⟩
  tenantReaders := Vector.replicate 4 none
  pages := Vector.replicate 6 Page.factory
  storeOp := none
  freeCount := 0
  pending := []

end Sys2Proof.Machine
end

