-- ==== Sys2Proof/Machine/Ops.lean ====
section
/-! DEFINITION. The named reads and updates of the state's records, each record read and changed through one accessor,
and the views of the state that are computed and not stored. -/

namespace Sys2Proof.Machine

/-! ### Indexes -/

/-- The table index of a control port: T0 to T3, then V. -/
def portIdx : Port → Fin 5
  | .tenant t => ⟨t.val, by omega⟩
  | .venue => 4

/-- The five control ports. -/
def allPorts : List Port := [.tenant 0, .tenant 1, .tenant 2, .tenant 3, .venue]

/-- The table index of an alarm class, which is its code (11.2). -/
def alarmIdx : AlarmClass → Fin 4
  | .heat => 0
  | .mismatch => 1
  | .supply => 2
  | .uplinkHot => 3

/-- The alarm classes in the order of R125. -/
def allAlarms : List AlarmClass := [.heat, .mismatch, .supply, .uplinkHot]

/-- The table index of a zone class, which is its code (11.2). -/
def classIdx : ZoneClass → Fin 4
  | .bowl => 0
  | .concourse => 1
  | .suite => 2
  | .service => 3

/-- The number of a chain position, 1 to 4. -/
def posNumber (p : Pos) : Nat := p.val + 1

/-- Z0 to Z47 in ascending order. -/
def allZones : List Zone := List.finRange 48
/-- T0 to T3 in ascending order. -/
def allTenants : List Tenant := [0, 1, 2, 3]
/-- S0 to S5 in ascending order. -/
def allSectors : List Sector := [0, 1, 2, 3, 4, 5]
/-- Chain positions in ascending order. -/
def allPositions : List Pos := [0, 1, 2, 3]
/-- F0 to F11 in ascending order. -/
def allFPorts : List FPort := [0, 1, 2, 3, 4, 5, 6, 7, 8, 9, 10, 11]
/-- P0 to P5 in ascending order. -/
def allPages : List PageNo := [0, 1, 2, 3, 4, 5]

/-! ### Records -/

def State.port (s : State) (p : Port) : PortRec := tget s.ports (portIdx p)
def State.modPort (s : State) (p : Port) (f : PortRec → PortRec) : State :=
  { s with ports := tmod s.ports (portIdx p) f }

def State.tenant (s : State) (t : Tenant) : TenantRec := tget s.tenants t
def State.modTenant (s : State) (t : Tenant) (f : TenantRec → TenantRec) : State :=
  { s with tenants := tmod s.tenants t f }

def State.zone (s : State) (z : Zone) : ZoneRec := tget s.zones z
def State.modZone (s : State) (z : Zone) (f : ZoneRec → ZoneRec) : State :=
  { s with zones := tmod s.zones z f }

def State.cell (s : State) (z : Zone) (t : Tenant) : Cell := tget (tget s.cells z) t
def State.modCell (s : State) (z : Zone) (t : Tenant) (f : Cell → Cell) : State :=
  { s with cells := tmod s.cells z fun row => tmod row t f }
/-- Changes the four cells of a zone, each by its tenant. -/
def State.modZoneCells (s : State) (z : Zone) (f : Tenant → Cell → Cell) : State :=
  { s with cells := tmod s.cells z fun row => tmapIdx f row }
/-- Changes the 48 cells of a tenant's column. -/
def State.modColumn (s : State) (t : Tenant) (f : Cell → Cell) : State :=
  { s with cells := tmapIdx (fun _ row => tmod row t f) s.cells }

def State.remote (s : State) (z : Zone) : RemoteRec := tget s.remotes z
def State.modRemote (s : State) (z : Zone) (f : RemoteRec → RemoteRec) : State :=
  { s with remotes := tmod s.remotes z f }

def State.link (s : State) (f : FPort) : LinkRec := tget s.links f
def State.modLink (s : State) (f : FPort) (g : LinkRec → LinkRec) : State :=
  { s with links := tmod s.links f g }

/-- The reader of a control port (R145): the venue's always exists, a tenant's while it is admitted. -/
def State.reader (s : State) : Port → Option Reader
  | .venue => some s.venueReader
  | .tenant t => tget s.tenantReaders t

/-- Replaces the reader of a control port. -/
def State.setReader (s : State) (p : Port) (r : Reader) : State :=
  match p with
  | .venue => { s with venueReader := r }
  | .tenant t => { s with tenantReaders := tset s.tenantReaders t (some r) }

/-! ### Computed views -/

/-- 00 1.4, "In service": the zone's remote is ALIVE or DEGRADED. -/
def inService (s : State) (z : Zone) : Bool :=
  match (s.remote z).state with
  | .alive => true
  | .degraded => true
  | _ => false

/-- R23: a zone is dimmed while the mode is STANDBY and its class is in the standby-dark set. -/
def dimmed (s : State) (z : Zone) : Bool :=
  s.venueMode == .standby && tget s.standbyDark (classIdx (s.zone z).cls)

/-- The tenant is ACTIVE or SUSPENDED (R28). -/
def admitted (s : State) (t : Tenant) : Bool := (s.tenant t).state != .vacant

/-- The tenant is ACTIVE. -/
def isActive (s : State) (t : Tenant) : Bool := (s.tenant t).state == .active

/-- R42: the cell's move, if it has one. -/
def moveAt (s : State) (z : Zone) (t : Tenant) : Option Move :=
  s.moves.find? fun m => m.zone == z && m.tenant == t

/-- Changes the move of a cell in place; the move keeps its queue position. -/
def State.modMove (s : State) (z : Zone) (t : Tenant) (f : Move → Move) : State :=
  { s with moves := s.moves.map fun m => if m.zone == z && m.tenant == t then f m else m }

/-- Removes the move of a cell from the queue; the moves behind it close up. -/
def State.dropMove (s : State) (z : Zone) (t : Tenant) : State :=
  { s with moves := s.moves.filter fun m => !(m.zone == z && m.tenant == t) }

/-- R14: a cell is pending when its target differs from its home and it has no move. -/
def pendingCell (s : State) (z : Zone) (t : Tenant) : Bool :=
  (s.cell z t).home != (s.cell z t).target && (moveAt s z t).isNone

/-- The number of ramp slots in use (R49). -/
def rampingCount (s : State) : Nat := s.moves.countP fun m => m.state == .ramping

/-- The number of moves a tenant holds in the queue (R44). -/
def moveCount (s : State) (t : Tenant) : Nat := s.moves.countP fun m => m.tenant == t

/-- R106: the zone bound to a fronthaul port and position. -/
def zoneAt (s : State) (f : FPort) (p : Pos) : Option Zone :=
  allZones.find? fun z => (s.zone z).binding == some ⟨f, p⟩

/-- R106: the bound positions of a port, ascending. -/
def boundPositions (s : State) (f : FPort) : List Pos :=
  allPositions.filter fun p => (zoneAt s f p).isSome

/-- R107: the polled position the reply timer runs for, if it runs. -/
def replyTimer (l : LinkRec) : Option Pos :=
  match l.round with
  | some ⟨p, .window _, _⟩ => some p
  | _ => none

/-- R175, R177: a port's attention line is asserted while it has a reason, and released during start-up. -/
def attentionAsserted (s : State) (p : Port) : Bool :=
  !s.starting && ((s.port p).log || (s.port p).movesIdle || (s.port p).storeDone)

/-- R36: the mute value a SET carries: 1 exactly while the remote is ISOLATED. -/
def muteOf (s : State) (z : Zone) : Bool := (s.remote z).state == .isolated

end Sys2Proof.Machine
end

