-- ==== Sys2Proof/Machine/Operands.lean ====
section
/-! DEFINITION. The operand forms: octets and their bits on a control port, the value codes of 11.2, multi-octet
fields, and the command code table of 11.5. -/

namespace Sys2Proof.Machine

/-! ### Octets -/

/-- A two-octet field, most significant octet first (chapter 11). -/
def be16 (hi lo : Byte) : Nat := hi.toNat * 256 + lo.toNat

/-- A number as one octet. -/
def octet (n : Nat) : Byte := BitVec.ofNat 8 n

/-- A number as a two-octet field, most significant octet first. -/
def octets16 (n : Nat) : List Byte := [octet (n / 256), octet n]

/-- One bit as an octet or as a bit of one. -/
def bit (b : Bool) : Nat := if b then 1 else 0

/-- R180: an optional value, absent as FFh. -/
def octetOr (n : Option Nat) : Byte :=
  match n with
  | some k => octet k
  | none => 0xFF

/-- R180: an optional count, absent as FFFFh. -/
def countOr (n : Option Nat) : List Byte :=
  match n with
  | some k => octets16 k
  | none => [0xFF, 0xFF]

/-- The bits of an octet as a controller clocks them, most significant first (R162). -/
def octetBits (param : Bool) (b : Byte) : List LineBit :=
  [⟨param, b.getLsbD 7⟩, ⟨param, b.getLsbD 6⟩, ⟨param, b.getLsbD 5⟩, ⟨param, b.getLsbD 4⟩,
    ⟨param, b.getLsbD 3⟩, ⟨param, b.getLsbD 2⟩, ⟨param, b.getLsbD 1⟩, ⟨param, b.getLsbD 0⟩]

/-- The value of eight bits taken most significant first. -/
def bitsOctet (bits : List LineBit) : Byte :=
  bits.foldl (fun (acc : Byte) b => (acc <<< 1) ||| (if b.din then 1 else 0)) 0

/-- R162: a whole octet as the port takes it: classified by the level at its first rising edge, and its value. -/
def takenOctet (bits : List LineBit) : Bool × Byte :=
  ((bits.head?.map LineBit.param).getD false, bitsOctet bits)

/-- R162: cuts the bits taken so far and the bits arriving into whole octets and the bits left over. -/
def cutOctets : List LineBit → List LineBit → List (Bool × Byte) × List LineBit
  | held, [] => ([], held)
  | held, b :: rest =>
    let held' := held ++ [b]
    if held'.length = 8 then
      let (os, left) := cutOctets [] rest
      (takenOctet held' :: os, left)
    else cutOctets held' rest

/-- The bits of a burst: its parameter octets and the begun octet. -/
def clockedBits (c : Clocked) : List LineBit := c.params.flatMap (octetBits true) ++ c.tail

/-! ### Value codes (11.2) -/

/-- The number of a zone, if there is one. -/
def zoneOf (b : Byte) : Option Zone := if h : b.toNat < 48 then some ⟨b.toNat, h⟩ else none
/-- The number of a tenant, if there is one. -/
def tenantOf (b : Byte) : Option Tenant := if h : b.toNat < 4 then some ⟨b.toNat, h⟩ else none
/-- The number of a scene slot, if there is one. -/
def slotOf (b : Byte) : Option Slot := if h : b.toNat < 4 then some ⟨b.toNat, h⟩ else none
/-- The number of a store page, if there is one. -/
def pageOf (b : Byte) : Option PageNo := if h : b.toNat < 6 then some ⟨b.toNat, h⟩ else none
/-- A sector below a sector count. -/
def sectorOf (count : Nat) (b : Byte) : Option Sector :=
  if h : b.toNat < 6 then (if b.toNat < count then some ⟨b.toNat, h⟩ else none) else none

/-- A sector below a sector count, or DARK (0Eh). -/
def destOf (count : Nat) (b : Byte) : Option Dest :=
  if b = 0x0E then some .dark else (sectorOf count b).map .sector

/-- A scene entry: KEEP (0Dh), DARK or a sector below the count (R69). -/
def sceneEntryOf (count : Nat) (b : Byte) : Option SceneEntry :=
  if b = 0x0D then some .keep else (destOf count b).map .dest

/-- An alarm class code. -/
def alarmOf (b : Byte) : Option AlarmClass :=
  match b.toNat with
  | 0 => some .heat
  | 1 => some .mismatch
  | 2 => some .supply
  | 3 => some .uplinkHot
  | _ => none

/-- A zone class code. -/
def classOf (b : Byte) : Option ZoneClass :=
  match b.toNat with
  | 0 => some .bowl
  | 1 => some .concourse
  | 2 => some .suite
  | 3 => some .service
  | _ => none

/-- A venue mode code. -/
def modeOf (b : Byte) : Option VenueMode :=
  match b.toNat with
  | 0 => some .event
  | 1 => some .standby
  | _ => none

/-- The code of a sector or DARK. -/
def destCode : Dest → Nat
  | .dark => 0x0E
  | .sector s => s.val

/-- The code of a result. -/
def resultCode : Result → Nat
  | .none => 0
  | .ok => 1
  | .clamped => 2
  | .skipped => 3
  | .incomplete => 4
  | .busy => 5
  | .range => 6
  | .rights => 7
  | .state => 8
  | .unknown => 9

/-- The code of a tenant state. -/
def tenantStateCode : TenantState → Nat
  | .vacant => 0
  | .active => 1
  | .suspended => 2

/-- The code of a remote state. -/
def remoteStateCode : RemoteState → Nat
  | .unbound => 0
  | .searching => 1
  | .alive => 2
  | .degraded => 3
  | .lost => 4
  | .isolated => 5

/-- The code of an isolation cause. -/
def causeCode : IsolationCause → Nat
  | .venue => 0
  | .overdrive => 1
  | .escalation c => 0x10 + (alarmIdx c).val

/-- The code of an origin (11.4). -/
def originCode : Origin → Nat
  | .tenant => 0
  | .scene => 1
  | .balancer => 2

/-- The code of a log entry kind (11.3). -/
def logKindCode : LogKind → Nat
  | .remoteSilent => 1
  | .remoteLost => 2
  | .chainBreak => 3
  | .portDown => 4
  | .remoteBack => 5
  | .alarmOn => 6
  | .alarmOff => 7
  | .autoIsolated => 8
  | .overdrive => 9
  | .sectorSaturated => 10
  | .carrierLost => 11
  | .carrierBack => 12
  | .storePageInvalid => 13
  | .venueWake => 14

/-- The code of a visibility (11.3). -/
def visibilityCode : Visibility → Nat
  | .venue => 0
  | .all => 1
  | .tenant t => 0x10 + t.val

/-! ### The command code table (11.5) -/

/-- All 42 commands. -/
def allCommands : List Command :=
  [.setWindow, .writeTargets, .writeAlternates, .requestMove, .cancelMove, .setLevel,
    .storeScene, .writeScene, .recallScene, .clearScene, .setSpreading, .readPlan,
    .readGrants, .readLoads, .readFault, .readStatus, .admitTenant, .suspendTenant,
    .resumeTenant, .retireTenant, .setQuota, .setLimit, .writeLimits, .pinZone,
    .unpinZone, .setVenueMode, .setStandbyClasses, .setWake, .setDerate, .setEscalation,
    .setSupervision, .setRamp, .setCensus, .writeWeights, .readWeights, .isolateRemote,
    .restoreRemote, .readZones, .writeStorePage, .lockStorePage, .readStorePage, .softReset]

/-- The code octet of a command. -/
def commandCode : Command → Byte
  | .setWindow => 0x01
  | .writeTargets => 0x02
  | .writeAlternates => 0x03
  | .requestMove => 0x04
  | .cancelMove => 0x05
  | .setLevel => 0x06
  | .storeScene => 0x07
  | .writeScene => 0x08
  | .recallScene => 0x09
  | .clearScene => 0x0A
  | .setSpreading => 0x0B
  | .readPlan => 0x10
  | .readGrants => 0x11
  | .readLoads => 0x12
  | .readFault => 0x13
  | .readStatus => 0x14
  | .admitTenant => 0x20
  | .suspendTenant => 0x21
  | .resumeTenant => 0x22
  | .retireTenant => 0x23
  | .setQuota => 0x24
  | .setLimit => 0x28
  | .writeLimits => 0x29
  | .pinZone => 0x2A
  | .unpinZone => 0x2B
  | .setVenueMode => 0x2C
  | .setStandbyClasses => 0x2D
  | .setWake => 0x2E
  | .setDerate => 0x30
  | .setEscalation => 0x31
  | .setSupervision => 0x32
  | .setRamp => 0x33
  | .setCensus => 0x34
  | .writeWeights => 0x35
  | .readWeights => 0x36
  | .isolateRemote => 0x37
  | .restoreRemote => 0x38
  | .readZones => 0x39
  | .writeStorePage => 0x40
  | .lockStorePage => 0x41
  | .readStorePage => 0x42
  | .softReset => 0x4F

/-- R164: the command a code octet names. -/
def commandOf (b : Byte) : Option Command := allCommands.find? fun c => commandCode c == b

/-- R165: who may give a command. -/
inductive CommandKind where
  | tenant | venue | shared
deriving DecidableEq, Repr

/-- R165, 10.9: the kind of each command. -/
def commandKind : Command → CommandKind
  | .setWindow => .shared
  | .writeTargets => .tenant
  | .writeAlternates => .tenant
  | .requestMove => .tenant
  | .cancelMove => .tenant
  | .setLevel => .tenant
  | .storeScene => .tenant
  | .writeScene => .tenant
  | .recallScene => .tenant
  | .clearScene => .tenant
  | .setSpreading => .tenant
  | .readPlan => .shared
  | .readGrants => .shared
  | .readLoads => .tenant
  | .readFault => .shared
  | .readStatus => .shared
  | .admitTenant => .venue
  | .suspendTenant => .venue
  | .resumeTenant => .venue
  | .retireTenant => .venue
  | .setQuota => .venue
  | .setLimit => .venue
  | .writeLimits => .venue
  | .pinZone => .venue
  | .unpinZone => .venue
  | .setVenueMode => .venue
  | .setStandbyClasses => .venue
  | .setWake => .venue
  | .setDerate => .venue
  | .setEscalation => .venue
  | .setSupervision => .venue
  | .setRamp => .venue
  | .setCensus => .venue
  | .writeWeights => .venue
  | .readWeights => .venue
  | .isolateRemote => .venue
  | .restoreRemote => .venue
  | .readZones => .venue
  | .writeStorePage => .venue
  | .lockStorePage => .venue
  | .readStorePage => .venue
  | .softReset => .venue

/-- The parameter octets of a fixed command, or of the leading parameters of a streamed one (column P of 11.5);
`venue` tells whether the port is V. -/
def paramCount (venue : Bool) : Command → Nat
  | .setWindow => 2
  | .writeTargets => 0
  | .writeAlternates => 0
  | .requestMove => 2
  | .cancelMove => 1
  | .setLevel => 3
  | .storeScene => 1
  | .writeScene => 1
  | .recallScene => 1
  | .clearScene => 1
  | .setSpreading => 8
  | .readPlan => if venue then 1 else 0
  | .readGrants => if venue then 1 else 0
  | .readLoads => 0
  | .readFault => 0
  | .readStatus => 0
  | .admitTenant => 3
  | .suspendTenant => 1
  | .resumeTenant => 1
  | .retireTenant => 1
  | .setQuota => 2
  | .setLimit => 3
  | .writeLimits => 0
  | .pinZone => 1
  | .unpinZone => 1
  | .setVenueMode => 1
  | .setStandbyClasses => 1
  | .setWake => 3
  | .setDerate => 2
  | .setEscalation => 2
  | .setSupervision => 4
  | .setRamp => 2
  | .setCensus => 1
  | .writeWeights => 0
  | .readWeights => 0
  | .isolateRemote => 1
  | .restoreRemote => 1
  | .readZones => 0
  | .writeStorePage => 33
  | .lockStorePage => 1
  | .readStorePage => 1
  | .softReset => 0

end Sys2Proof.Machine
end

