-- ==== Sys2Proof/Machine/Flags.lean ====
section
/-! DEFINITION. The flags of the block: a port's result code (R174) and its attention reasons (R175). -/

namespace Sys2Proof.Machine

/-- R174: sets the result of a port. -/
def setResult (p : Port) (r : Result) (s : State) : State := s.modPort p fun q => { q with result := r }

/-- R174: OK, or CLAMPED where a value was clamped. -/
def clampResult (clamped : Bool) : Result := if clamped then .clamped else .ok

/-- R169: the result of a streamed write becomes CLAMPED or SKIPPED at the first such element and stays so. -/
def markResult (p : Port) (hit : Bool) (r : Result) (s : State) : State := if hit then setResult p r s else s

/-- R65, R175: the MOVES_IDLE reason is gained by a tenant's port. -/
def gainMovesIdle (t : Tenant) (s : State) : State := s.modPort (.tenant t) fun q => { q with movesIdle := true }

/-- R152, R175: the STORE_DONE reason is gained by port V. -/
def gainStoreDone (s : State) : State := s.modPort .venue fun q => { q with storeDone := true }

/-- R176: READ STATUS removes MOVES_IDLE and STORE_DONE and keeps LOG. -/
def clearOnStatus (p : Port) (s : State) : State :=
  s.modPort p fun q => { q with movesIdle := false, storeDone := false }

/-- The attention reasons octet of READ STATUS (11.3): bit 0 LOG, bit 1 MOVES_IDLE, bit 2 STORE_DONE. -/
def reasonsOctet (q : PortRec) : Byte := octet (bit q.log + 2 * bit q.movesIdle + 4 * bit q.storeDone)

/-- R174: the last command code and the result change together at a command's code. -/
def setCodeResult (p : Port) (code : Byte) (r : Result) (s : State) : State :=
  s.modPort p fun q => { q with lastCode := some code, result := r }

/-- R163: sets the command in progress of a port. -/
def setCmd (p : Port) (c : Progress) (s : State) : State := s.modPort p fun q => { q with cmd := c }

/-- R173: an event from outside ends the command in progress on a port with result STATE; an IDLE port is left as it
is. -/
def endFromOutside (p : Port) (s : State) : State :=
  if (s.port p).cmd = .idle then s else s.modPort p fun q => { q with cmd := .idle, result := .state }

/-- R168: after an element the pointer moves to the next zone, or from the window's last zone to its first. -/
def nextPointer (q : PortRec) : Zone := if q.pointer = q.last then q.first else q.pointer + 1

/-- R168: moves the pointer of a port on. -/
def advancePointer (p : Port) (s : State) : State := s.modPort p fun q => { q with pointer := nextPointer q }

/-- R168: at the accepted code of a windowed command the pointer is placed at the window's first zone. -/
def placePointer (p : Port) (s : State) : State := s.modPort p fun q => { q with pointer := q.first }

end Sys2Proof.Machine
end

