-- ==== Sys2Proof/Machine/Log.lean ====
section
/-! DEFINITION. The Fault Log (chapter 8): visibility, appending with the discard of the oldest entry, reading, and the
LOG attention reason. -/

namespace Sys2Proof.Machine

/-- R142: whether an entry is visible to the reader of a port. -/
def visibleTo (p : Port) (e : Entry) : Bool :=
  match p, e.vis with
  | .venue, _ => true
  | .tenant _, .all => true
  | .tenant t, .tenant t' => t == t'
  | .tenant _, .venue => false

/-- R148: a reader's port has LOG while the reader has a visible unread entry or a lost count above 0; a port without a
reader has none. -/
def logReasonOf (s : State) (p : Port) : Bool :=
  match s.reader p with
  | none => false
  | some r => decide (0 < r.lost) || (s.log.drop r.cursor).any (visibleTo p)

/-- R148: evaluates the LOG reason of one port. -/
def evalLog (p : Port) (s : State) : State := s.modPort p fun q => { q with log := logReasonOf s p }

/-- R148: evaluates the LOG reason of every reader. -/
def evalLogAll (s : State) : State := allPorts.foldl (fun s p => evalLog p s) s

/-- R144: what the discard of the oldest entry does to a reader: a cursor at it moves to the entry that followed (which
is then the oldest), and the lost count rises, held at 255, if the entry was visible. -/
def readerAfterDiscard (p : Port) (oldest : Entry) (r : Reader) : Reader :=
  if r.cursor = 0 then { r with lost := if visibleTo p oldest then min (r.lost + 1) 255 else r.lost }
  else { r with cursor := r.cursor - 1 }

/-- R144: a log that holds 64 entries loses its oldest before an append. -/
def discardOldest (s : State) : State :=
  match s.log with
  | [] => s
  | e :: rest =>
    if s.log.length < 64 then s else
      { s with
        log := rest
        venueReader := readerAfterDiscard .venue e s.venueReader
        tenantReaders := tmapIdx (fun t r => r.map (readerAfterDiscard (.tenant t) e)) s.tenantReaders }

/-- R143: appends an entry at the tail. A cursor at "after newest" equals the length of the log, so it stands at the new
entry without moving. The LOG reason is then evaluated for every reader. -/
def appendLog (e : Entry) (s : State) : State :=
  let s := discardOldest s
  evalLogAll { s with log := s.log ++ [e] }

/-- The entries the rules append, each with the time of the seconds counter (R142). -/
def logEntry (kind : LogKind) (vis : Visibility) (s : State) : Entry := { kind := kind, time := s.seconds, vis := vis }

/-- R142: an entry about a zone. -/
def logZone (kind : LogKind) (vis : Visibility) (z : Zone) (s : State) : State :=
  appendLog { logEntry kind vis s with zone := some z } s

/-- R142: an entry about a zone and an alarm class. -/
def logAlarm (kind : LogKind) (vis : Visibility) (z : Zone) (c : AlarmClass) (s : State) : State :=
  appendLog { logEntry kind vis s with zone := some z, alarm := some c } s

/-- R8, R142: an entry about a tenant's sector, visible to that tenant and the venue. -/
def logCarrier (kind : LogKind) (t : Tenant) (sec : Sector) (s : State) : State :=
  appendLog { logEntry kind (.tenant t) s with tenant := some t, sector := some sec } s

/-! ### Reading -/

/-- R146: the position of the first entry at or after `from` that is visible to the reader of a port. -/
def firstVisible (p : Port) : List Entry → Nat → Option (Nat × Entry)
  | [], _ => none
  | e :: rest, i => if visibleTo p e then some (i, e) else firstVisible p rest (i + 1)

/-- 11.3: the READ FAULT reply for an entry, with the lost count. -/
def faultReply (e : Entry) (lost : Nat) : List Byte :=
  [octet (logKindCode e.kind)] ++
  [octet (e.time.toNat / 16777216), octet (e.time.toNat / 65536), octet (e.time.toNat / 256), octet e.time.toNat] ++
  [octet (visibilityCode e.vis), octet lost,
    octetOr (e.zone.map Fin.val), octetOr (e.port.map Fin.val), octetOr (e.pos.map posNumber),
    octetOr (e.tenant.map Fin.val), octetOr (e.sector.map Fin.val),
    octetOr (e.alarm.map fun c => (alarmIdx c).val), octetOr (e.page.map Fin.val)] ++
  countOr e.count

/-- R146, R180: the READ FAULT reply of kind NONE: the seconds counter as its time, every field absent. -/
def faultReplyNone (time : BitVec 32) (lost : Nat) : List Byte :=
  [0x00, octet (time.toNat / 16777216), octet (time.toNat / 65536), octet (time.toNat / 256), octet time.toNat,
    0xFF, octet lost, 0xFF, 0xFF, 0xFF, 0xFF, 0xFF, 0xFF, 0xFF, 0xFF, 0xFF]

/-- R146, R147: selects the reply of a reader, moves its cursor past the entry (or to "after newest"), returns its lost
count to 0, and evaluates its LOG reason. -/
def readLog (p : Port) (r : Reader) (s : State) : List Byte × State :=
  match firstVisible p (s.log.drop r.cursor) r.cursor with
  | some (i, e) => (faultReply e r.lost, evalLog p (s.setReader p ⟨i + 1, 0⟩))
  | none => (faultReplyNone s.seconds r.lost, evalLog p (s.setReader p ⟨s.log.length, 0⟩))

end Sys2Proof.Machine
end

