-- ==== Sys2Proof/Machine/Crc.lean ====
section
/-! DEFINITION. The CRC-16 of control frames and store pages (R178), and the layouts of the control frames (R101,
11.1). -/

namespace Sys2Proof.Machine

/-- One bit of the CRC: shift left, and fold the generator 1021h in when a 1 leaves. -/
def crcBit (c : Word16) : Word16 := if c.msb then (c <<< 1) ^^^ 0x1021 else c <<< 1

/-- One octet of the CRC, most significant bit first. -/
def crcOctet (c : Word16) (b : Byte) : Word16 :=
  crcBit (crcBit (crcBit (crcBit (crcBit (crcBit (crcBit (crcBit (c ^^^ (b.setWidth 16 <<< 8)))))))))

/-- R178: generator 1021h, starting value FFFFh, no final inversion. -/
def crc16 (octets : List Byte) : Word16 := octets.foldl crcOctet 0xFFFF

/-- The two CRC octets of a frame, high octet first. -/
def crcOctets (octets : List Byte) : List Byte :=
  let c := (crc16 octets).toNat
  octets16 c

/-- R101: the start pattern, sent as framing characters. -/
def startPattern : List LineChar := [.framing 0xC3, .framing 0x5A]

/-- R101, 11.1: the characters of a control frame on the line: the start pattern, and every other octet as data. -/
def frameChars (address kind : Byte) (payload : List Byte) : List LineChar :=
  startPattern ++
    (octet (payload.length + 5) :: address :: kind :: payload ++ crcOctets (address :: kind :: payload)).map .data

/-- R102: a POLL to a position. -/
def pollChars (p : Pos) : List LineChar := frameChars (octet (posNumber p)) 0x01 []

/-- R102: a queued frame: SET to one position with limit and mute, or CHAIN_MUTE to address 15. -/
def queuedChars : Frame → List LineChar
  | .set p limit mute => frameChars (octet (posNumber p)) 0x02 (octets16 limit ++ [octet (bit mute)])
  | .chainMute => frameChars 0x0F 0x03 []

end Sys2Proof.Machine
end

