-- ==== Sys2Proof/Machine/Queue.lean ====
section
/-! DEFINITION. The transmit queues of the Link Controllers (6.5, 6.6): starting the head of a queue, queueing,
coalescing and owing a SET. -/

namespace Sys2Proof.Machine

/-- R110: while no round is in progress, a LOCKED port with an idle transmitter sends the head of its queue. -/
def startQueued (f : FPort) (s : State) : State :=
  let l := s.link f
  if !s.starting && l.locked && l.sending == .nothing && l.round.isNone && !l.queue.isEmpty then
    s.modLink f fun l => { l with sending := .queued }
  else s

/-- Whether a frame is a SET to a position. -/
def isSetTo (p : Pos) : Frame → Bool
  | .set q _ _ => q == p
  | .chainMute => false

/-- R113: the frames of a queue that wait, the one in transmission left out. -/
def waitingFrames (l : LinkRec) : List Frame := if l.sending = .queued then l.queue.drop 1 else l.queue

/-- R113, R135: a SET for the position waits in the queue. -/
def setWaiting (l : LinkRec) (p : Pos) : Bool := (waitingFrames l).any (isSetTo p)

/-- R113: the queue with the waiting SET of a position given new values in place. -/
def coalesce (l : LinkRec) (p : Pos) (limit : Nat) (mute : Bool) : List Frame :=
  (if l.sending = .queued then l.queue.take 1 else []) ++
    (waitingFrames l).map fun fr => if isSetTo p fr then .set p limit mute else fr

/-- R113: queues a SET with the zone's effective limit and mute value as they stand (R36, R112): into a waiting SET of
the same position, else at the tail of a queue of fewer than 4 frames, else as SET owed on the zone's record. A SET that
is queued clears the mark (R114); one that coalesces into a SET that a loss of lock abandoned keeps it (DESIGN CHOICE,
log 33). A zone without a binding is owed none (R36). -/
def queueSet (z : Zone) (s : State) : State :=
  match (s.zone z).binding with
  | none => s
  | some b =>
    let limit := (s.zone z).effLimit
    let mute := muteOf s z
    let l := s.link b.port
    if setWaiting l b.pos then
      s.modLink b.port fun l => { l with queue := coalesce l b.pos limit mute }
    else if l.queue.length < 4 then
      let s := s.modLink b.port fun l => { l with queue := l.queue ++ [.set b.pos limit mute] }
      let s := s.modRemote z fun r => { r with setOwed := false }
      startQueued b.port s
    else s.modRemote z fun r => { r with setOwed := true }

/-- R114: the zone with a SET owed at the lowest position of a port. -/
def lowestOwed (s : State) (f : FPort) : Option Zone :=
  (allPositions.filterMap (zoneAt s f)).find? fun z => (s.remote z).setOwed

/-- R114: a freed entry of a port's queue takes the owed SET of the lowest position. -/
def takeOwed (f : FPort) (s : State) : State :=
  match lowestOwed s f with
  | some z => queueSet z s
  | none => s

end Sys2Proof.Machine
end

