-- ==== Sys2Proof/Machine/Allot.lean ====
section
/-! DEFINITION. The Allotment Engine (chapter 2): the effective limit, requests, floors, grants and gains, and the
allotment pass with the SET it owes. -/

namespace Sys2Proof.Machine

/-- R26: the derate factor D of a zone: the smallest derate setting among the active alarm classes, else 32. -/
def derateFactor (s : State) (z : Zone) : Nat :=
  allAlarms.foldl
    (fun d c => if (tget (s.remote z).alarms (alarmIdx c)).active then min d (tget s.derate (alarmIdx c)) else d) 32

/-- R25: the effective limit a pass computes for a zone. -/
def effLimitOf (s : State) (z : Zone) : Nat :=
  if !inService s z then 0
  else if dimmed s z then 0
  else (s.zone z).live * derateFactor s z / 32

/-- R27: the level of a sector, 0 while it is ABSENT; level(DARK) is 0. -/
def levelOf (r : TenantRec) : Dest → Nat
  | .dark => 0
  | .sector k => if tget r.presence k then tget r.levels k else 0

/-- R27: the request of a tenant at a zone. -/
def requestOf (s : State) (z : Zone) (t : Tenant) : Nat :=
  let r := s.tenant t
  if r.state != .active then 0
  else
    match moveAt s z t with
    | some m => if m.state = .ramping then max (levelOf r m.src) (levelOf r m.dst) else levelOf r (s.cell z t).home
    | none => levelOf r (s.cell z t).home

/-- A sum over the four tenants. -/
def sumTenants (f : Tenant → Nat) : Nat := f 0 + f 1 + f 2 + f 3

/-- R28: the floor of a tenant; a VACANT tenant has none. -/
def floorOf (eff : Nat) (adm : Tenant → Bool) (share : Tenant → Nat) (t : Tenant) : Nat :=
  if adm t then eff * share t / 32 else 0

/-- R28, first stage: each admitted tenant receives its request up to its floor. -/
def stageOne (eff : Nat) (adm : Tenant → Bool) (share q : Tenant → Nat) (t : Tenant) : Nat :=
  min (q t) (floorOf eff adm share t)

/-- R29: the excess of an admitted tenant. -/
def excessOf (eff : Nat) (adm : Tenant → Bool) (share q : Tenant → Nat) (t : Tenant) : Nat :=
  if adm t then q t - stageOne eff adm share q t else 0

/-- R28: the remainder. -/
def remainderOf (eff : Nat) (adm : Tenant → Bool) (share q : Tenant → Nat) : Nat :=
  eff - sumTenants (stageOne eff adm share q)

/-- R30: the number of tenants below `t` that have an excess. -/
def rankOf (e : Tenant → Nat) (t : Tenant) : Nat := sumTenants fun u => if u < t ∧ 0 < e u then 1 else 0

/-- R28 to R30: the grant of a tenant. -/
def grantOf (eff : Nat) (adm : Tenant → Bool) (share q : Tenant → Nat) (t : Tenant) : Nat :=
  let g := stageOne eff adm share q
  let e := excessOf eff adm share q
  let r := remainderOf eff adm share q
  let sumE := sumTenants e
  if !adm t then 0
  else if sumE ≤ r then q t
  else
    let add := fun u => r * e u / sumE
    let left := r - sumTenants add
    g t + add t + (if 0 < e t ∧ rankOf e t < left then 1 else 0)

/-- R31: the gain. -/
def gainOf (request grant : Nat) : Nat := if request = 0 then 0 else 256 * grant / request

/-- The grant a pass computes for a tenant at a zone whose effective limit is `eff`. -/
def zoneGrant (s : State) (z : Zone) (eff : Nat) (t : Tenant) : Nat :=
  grantOf eff (admitted s) (fun u => (s.tenant u).quota) (requestOf s z) t

/-- R33: the results of a pass replace those held for the zone. -/
def passResults (z : Zone) (s : State) : State :=
  let eff := effLimitOf s z
  let s' := s.modZone z fun r => { r with effLimit := eff }
  s'.modZoneCells z fun t c =>
    let q := requestOf s z t
    let g := zoneGrant s z eff t
    { c with request := q, grant := g, gain := gainOf q g }

/-- R33, R36: an allotment pass; where it changes the effective limit of a bound zone, a SET is queued. -/
def pass (z : Zone) (s : State) : State :=
  let s' := passResults z s
  if (s'.zone z).effLimit = (s.zone z).effLimit then s' else queueSet z s'

/-- The zones in the order in which one event runs their passes. R35 leaves the order open; SETs that one event queues
on one port are taken in ascending position order (R112), so bound zones come by position (log 20). -/
def passOrder (s : State) : List Zone :=
  (allPositions.flatMap fun p => allZones.filter fun z => ((s.zone z).binding.map Binding.pos) == some p) ++
    allZones.filter fun z => (s.zone z).binding.isNone

/-- R34: runs a pass at each zone that `sel` selects. -/
def passes (sel : Zone → Bool) (s : State) : State := ((passOrder s).filter sel).foldl (fun s z => pass z s) s

/-- R34: runs a pass at every zone. -/
def passAll (s : State) : State := passes (fun _ => true) s

/-- R23: runs a pass at every zone whose dimmed flag an event has changed. -/
def passDimmed (before : State) (s : State) : State := passes (fun z => dimmed before z != dimmed s z) s

/-- R7: a zone uses a tenant's sector when a cell of the tenant has it as its home, or has a RAMPING move from or to
it. -/
def usesSector (s : State) (t : Tenant) (k : Sector) (z : Zone) : Bool :=
  (s.cell z t).home == .sector k ||
    match moveAt s z t with
    | some m => m.state == .ramping && (m.src == .sector k || m.dst == .sector k)
    | none => false

/-! ### Reported figures -/

/-- R41: the grant total of a zone. -/
def grantTotal (s : State) (z : Zone) : Nat := sumTenants fun t => (s.cell z t).grant

/-- R32: the headroom of a zone. -/
def headroom (s : State) (z : Zone) : Nat := (s.zone z).effLimit - grantTotal s z

end Sys2Proof.Machine
end

