-- ==== Sys2Proof/Machine/Moves.lean ====
section
/-! DEFINITION. Targets, moves and ramps (chapters 1 and 3): admission, ramp slots, retargeting, the outage rule, and
what closes every event that touches them. -/

namespace Sys2Proof.Machine

/-! ### Admission and ramp slots -/

/-- R46: the tenants in round-robin order, from the one that follows the admission position. -/
def roundRobin (p : Tenant) : List Tenant := [p + 1, p + 2, p + 3, p]

/-- R46 step 3: the lowest zone at which a tenant's cell is pending. -/
def lowestPending (s : State) (t : Tenant) : Option Zone := allZones.find? fun z => pendingCell s z t

/-- R46: the tenant and zone the arbiter chooses, if the queue can take a move (R44, R45). -/
def nextAdmission (s : State) : Option (Tenant × Zone) :=
  if s.moves.length < 32 then
    (roundRobin s.admitPos).findSome? fun t =>
      if moveCount s t < 16 then (lowestPending s t).map fun z => (t, z) else none
  else none

/-- R45: the move that admission creates for a cell. -/
def newMove (s : State) (z : Zone) (t : Tenant) : Move where
  tenant := t
  zone := z
  src := (s.cell z t).home
  dst := (s.cell z t).target
  weight := 0
  dir := .forward
  state := .waiting
  origin := (s.cell z t).source

/-- R45, R46: admits one pending cell at the tail of the queue. -/
def admitNext (s : State) : State :=
  match nextAdmission s with
  | some (t, z) => { s with moves := s.moves ++ [newMove s z t], admitPos := t }
  | none => s

/-- R46: admits until the queue is full or no tenant has both a pending cell and room. Each admission lengthens the
queue, which takes at most 32 moves, so `n = 32` always suffices. -/
def admitPending : Nat → State → State
  | 0, s => s
  | n + 1, s => if (nextAdmission s).isNone then s else admitPending n (admitNext s)

/-- R49: the oldest WAITING move in queue order. -/
def oldestWaiting (s : State) : Option Move := s.moves.find? fun m => m.state == .waiting

/-- R49: a WAITING move starts RAMPING. Its allotment pass follows in `settle`. -/
def startRamping (m : Move) (s : State) : State := s.modMove m.zone m.tenant fun m => { m with state := .ramping }

/-- R49: starts the oldest WAITING moves while fewer than 8 moves are RAMPING; `n = 8` always suffices. -/
def grantSlots : Nat → State → State
  | 0, s => s
  | n + 1, s =>
    if rampingCount s < 8 then
      match oldestWaiting s with
      | some m => grantSlots n (startRamping m s)
      | none => s
    else s

/-- The moves of a zone in queue order. -/
def zoneMoves (s : State) (z : Zone) : List Move := s.moves.filter fun m => m.zone == z

/-- R49: ramp slot granting, and a pass at every zone of which it starts a move (R34). -/
def grantAndPass (s : State) : State :=
  let s' := grantSlots 8 s
  passes (fun z => zoneMoves s' z != zoneMoves s z) s'

/-- R47, R49, R55: admission, then ramp slot granting. A granted slot changes neither the queue's length nor any
pending cell, and a newly admitted move joins behind every older one, so this reaches the point at which neither can
proceed. -/
def settle (s : State) : State := grantAndPass (admitPending 32 s)

/-! ### The close of an event -/

/-- R65: the tenant has a move in the queue or a pending cell. -/
def hasWork (s : State) (t : Tenant) : Bool :=
  (s.moves.any fun m => m.tenant == t) || (allZones.any fun z => pendingCell s z t)

/-- R65: a tenant that is ACTIVE after an event and has no work, but had some before it, gains MOVES_IDLE. -/
def raiseIdle (before : State) (s : State) : State :=
  allTenants.foldl
    (fun acc t => if isActive s t && hasWork before t && !hasWork s t then gainMovesIdle t acc else acc) s

/-- R47: an event made a cell pending, or removed a move from the queue. -/
def admissionCalled (before s : State) : Bool :=
  (before.moves.any fun m => (moveAt s m.zone m.tenant).isNone) ||
    (allZones.any fun z => allTenants.any fun t => pendingCell s z t && !pendingCell before z t)

/-- The close of an event that may touch targets, homes or moves: admission and slot granting where R47 calls for them,
taken after the rest of the event, and then MOVES_IDLE (R55, R65). -/
def finish (before s : State) : State :=
  raiseIdle before (if admissionCalled before s then settle s else s)

/-! ### Target changes -/

/-- R57 to R59: what a new target makes of the cell's move: none if the move is removed. -/
def retargeted (m : Move) (d : Dest) (src : Origin) : Option Move :=
  match m.state, m.dir with
  | .waiting, _ =>
    if d = m.src then none
    else if d = m.dst then some m
    else some { m with dst := d, origin := src }
  | .ramping, .forward => if d = m.src then some { m with dir := .reverse, origin := src } else some m
  | .ramping, .reverse => if d = m.dst then some { m with dir := .forward, origin := src } else some m

/-- R15 step 3: the retarget table applied to the queue. -/
def retargetMove (z : Zone) (t : Tenant) (m : Move) (d : Dest) (src : Origin) (s : State) : State :=
  match retargeted m d src with
  | none => s.dropMove z t
  | some m' => s.modMove z t fun _ => m'

/-- R15: applies a target that its source has checked. Step 1: a pinned zone refuses it. Step 2: out of service, the
home and the target both take it (R16), with a pass if the home changed, and the source is recorded (R43, R73, R94;
log 13). Steps 3 and 4: the target and its source are set, and the retarget table decides what becomes of a move; a target
equal to the present one has no effect (log 14). Admission follows at the close of the event (`finish`). -/
def setTarget (z : Zone) (t : Tenant) (d : Dest) (src : Origin) (s : State) : State :=
  if (s.zone z).pinned then s
  else if !inService s z then
    let s' := s.modCell z t fun c => { c with home := d, target := d, source := src }
    if (s.cell z t).home = d then s' else pass z s'
  else if (s.cell z t).target = d then s
  else
    let s' := s.modCell z t fun c => { c with target := d, source := src }
    match moveAt s z t with
    | some m => retargetMove z t m d src s'
    | none => s'

/-! ### The outage rule -/

/-- R16, R20, R63: at the event at which a zone's remote leaves ALIVE or DEGRADED: every move of the zone completes (its
to sector becomes the home) and leaves the queue, then every cell whose target differs from its home takes its target as
its home, and every occupancy becomes 0. The zone's pass and admission belong to the rest of the event. -/
def outage (z : Zone) (s : State) : State :=
  let s := s.modZoneCells z fun t c =>
    match moveAt s z t with
    | some m => { c with home := m.dst }
    | none => c
  let s := { s with moves := s.moves.filter fun m => !(m.zone == z) }
  s.modZoneCells z fun _ c => { c with home := c.target, occupancy := 0 }

/-! ### Ramp timer expiry -/

/-- R52: a RAMPING move advances by the ramp step, held within 0 to 32. -/
def advanceMove (step : Nat) (m : Move) : Move :=
  match m.state, m.dir with
  | .waiting, _ => m
  | .ramping, .forward => { m with weight := min (m.weight + step) 32 }
  | .ramping, .reverse => { m with weight := m.weight - step }

/-- R53, R54: a RAMPING move has reached its end. -/
def moveDone (m : Move) : Bool :=
  match m.state, m.dir with
  | .waiting, _ => false
  | .ramping, .forward => m.weight == 32
  | .ramping, .reverse => m.weight == 0

/-- R53, R54: a completed move leaves the queue, and a FORWARD one sets the home to its to sector. Its allotment pass
follows in `rampExpiry`. -/
def completeMove (m : Move) (s : State) : State :=
  let s := s.dropMove m.zone m.tenant
  if m.dir = .forward then s.modCell m.zone m.tenant fun c => { c with home := m.dst } else s

/-- R52 to R55: one ramp timer expiry: the advances, the completions, and a pass at every zone of a completed move. The
expiry that follows falls one present ramp tick later (R51, R56). An expiry cannot come while the timer does not run
(R159). -/
def rampExpiry (s : State) : State :=
  if !s.rampTimer.running then s
  else
    let s1 := { s with moves := s.moves.map (advanceMove s.rampStep), rampTimer := ⟨true, s.rampTick⟩ }
    let done := s1.moves.filter moveDone
    let s2 := done.foldl (fun s m => completeMove m s) s1
    finish s (passes (fun z => done.any fun m => m.zone == z) s2)

end Sys2Proof.Machine
end

