-- ==== Sys2Proof/Machine/Supervision.lean ====
section
/-! DEFINITION. Remote Supervision (chapter 7): replies, misses, alarms, escalation, overdrive, isolation, echo
convergence and chain-break correlation. -/

namespace Sys2Proof.Machine

/-- Changes the record of one alarm class of a remote. -/
def modAlarm (z : Zone) (c : AlarmClass) (f : AlarmRec → AlarmRec) (s : State) : State :=
  s.modRemote z fun r => { r with alarms := tmod r.alarms (alarmIdx c) f }

/-- The record of one alarm class of a zone's remote. -/
def alarmAt (s : State) (z : Zone) (c : AlarmClass) : AlarmRec := tget (s.remote z).alarms (alarmIdx c)

/-- R119: the active alarm set is not empty. -/
def anyAlarm (s : State) (z : Zone) : Bool := allAlarms.any fun c => (alarmAt s z c).active

/-- R119: the state of a remote in service, from its active alarm set. -/
def serviceState (s : State) (z : Zone) : RemoteState := if anyAlarm s z then .degraded else .alive

/-- R119: the bits of the active alarm set, as in the STATUS alarm flags (11.4). -/
def alarmBits (s : State) (z : Zone) : Nat :=
  bit (alarmAt s z .heat).active + 2 * bit (alarmAt s z .mismatch).active +
    4 * bit (alarmAt s z .supply).active + 8 * bit (alarmAt s z .uplinkHot).active

/-- A STATUS carries the flag of a class (11.1). -/
def statusFlag (st : Status) (c : AlarmClass) : Bool := st.flags.getLsbD (alarmIdx c).val

/-! ### Isolation -/

/-- R130: the record at entry to ISOLATED. -/
def isolatedRecord (cause : IsolationCause) (r : RemoteRec) : RemoteRec :=
  { r with
    state := .isolated
    cause := some cause
    missCount := 0
    goodCount := 0
    overdrive := 0
    alarms := tmapIdx (fun _ a => { a with escalation := 0 }) r.alarms
    unreachable := false
    behindBreak := false }

/-- R130: a remote enters ISOLATED: the record changes, the outage rule applies if it was in service, a pass runs, and a
SET with limit 0 and mute 1 is queued. The SET that the pass owes coalesces with it: one SET is queued, with the values
both carry. -/
def enterIsolated (z : Zone) (cause : IsolationCause) (s : State) : State :=
  let wasIn := inService s z
  let s := s.modRemote z (isolatedRecord cause)
  let s := if wasIn then outage z s else s
  queueSet z (passResults z s)

/-! ### Misses -/

/-- R123: the record at entry to LOST. -/
def lostRecord (r : RemoteRec) : RemoteRec :=
  { r with
    state := .lost
    alarms := tmapIdx (fun _ a => { a with onset := 0, clearing := 0 }) r.alarms
    overdrive := 0
    lostThisRound := true }

/-- R123: a remote in service enters LOST. -/
def enterLost (z : Zone) (s : State) : State := pass z (outage z (s.modRemote z lostRecord))

/-- R121: a miss delivered for a zone. -/
def handleMiss (z : Zone) (s : State) : State :=
  let s := s.modRemote z fun r => { r with goodCount := 0, missCount := min (r.missCount + 1) 15 }
  let r := s.remote z
  match r.state with
  | .unbound => s
  | .searching =>
    if s.lossThreshold ≤ r.missCount ∧ r.silentReported = false then
      logZone .remoteSilent .venue z (s.modRemote z fun r => { r with silentReported := true })
    else s
  | .alive => if s.lossThreshold ≤ r.missCount then enterLost z s else s
  | .degraded => if s.lossThreshold ≤ r.missCount then enterLost z s else s
  | .lost => s
  | .isolated => s.modRemote z fun r => { r with unreachable := true }

/-! ### Replies (R138) -/

/-- R138 step 1: counts and values. -/
def replyCounts (z : Zone) (st : Status) (s : State) : State :=
  s.modRemote z fun r =>
    { r with
      missCount := 0
      goodCount := min (r.goodCount + 1) 7
      lastTemp := st.temp
      lastOutput := st.output
      lastApplied := st.applied
      lastMute := st.mute
      unreachable := if r.state = .isolated then false else r.unreachable }

/-- R129: the margin above an effective limit. -/
def overdriveMargin (eff : Nat) : Nat := eff + eff / 8 + 8

/-- R129: the overdrive count after the check: held unless the echoed limit equals the last-sent limit and that equals
the effective limit; else raised (held at 3) above the margin, and 0 at it or below. -/
def overdriveAfter (eff : Nat) (st : Status) (r : RemoteRec) : Nat :=
  if st.applied = r.sentLimit ∧ r.sentLimit = eff then
    (if overdriveMargin eff < st.output then min (r.overdrive + 1) 3 else 0)
  else r.overdrive

/-- R138 step 2, R129: the overdrive check of a remote in service; a count that rises to 3 isolates it. -/
def replyOverdrive (z : Zone) (st : Status) (s : State) : State :=
  if inService s z then
    let n := overdriveAfter (s.zone z).effLimit st (s.remote z)
    let rose := decide ((s.remote z).overdrive < n)
    let s := s.modRemote z fun r => { r with overdrive := n }
    if rose && n == 3 then logZone .overdrive .all z (enterIsolated z .overdrive s) else s
  else s

/-- R125: the alarm handling of one class at one reply. -/
def replyAlarm (z : Zone) (st : Status) (c : AlarmClass) (s : State) : State :=
  let a := alarmAt s z c
  if a.active then
    if statusFlag st c then modAlarm z c (fun a => { a with clearing := 0 }) s
    else if s.alarmDebounce ≤ a.clearing + 1 then
      let s := modAlarm z c (fun a => { a with active := false, clearing := 0, escalation := 0 }) s
      logAlarm .alarmOff .venue z c (pass z s)
    else modAlarm z c (fun a => { a with clearing := min (a.clearing + 1) 8 }) s
  else
    if !statusFlag st c then modAlarm z c (fun a => { a with onset := 0 }) s
    else if s.alarmDebounce ≤ a.onset + 1 then
      let s := modAlarm z c (fun a => { a with active := true, onset := 0 }) s
      logAlarm .alarmOn .venue z c (pass z s)
    else modAlarm z c (fun a => { a with onset := min (a.onset + 1) 8 }) s

/-- R138 step 3, R125: the four classes in order. -/
def replyAlarms (z : Zone) (st : Status) (s : State) : State :=
  allAlarms.foldl (fun s c => replyAlarm z st c s) s

/-- R127: the first class in order whose setting is not 0 and whose count has reached it. -/
def escalated (s : State) (z : Zone) : Option AlarmClass :=
  allAlarms.find? fun c =>
    (alarmAt s z c).active && tget s.escalation (alarmIdx c) != 0 &&
      decide (tget s.escalation (alarmIdx c) ≤ (alarmAt s z c).escalation)

/-- R127: the escalation count of an active class rises by 1, held at 255. -/
def raiseEscalation (a : AlarmRec) : AlarmRec :=
  if a.active then { a with escalation := min (a.escalation + 1) 255 } else a

/-- R138 step 4, R127: escalation of a remote that is not ISOLATED. -/
def replyEscalation (z : Zone) (s : State) : State :=
  if (s.remote z).state = .isolated then s
  else
    let s := s.modRemote z fun r => { r with alarms := tmapIdx (fun _ a => raiseEscalation a) r.alarms }
    match escalated s z with
    | some c => logAlarm .autoIsolated .all z c (enterIsolated z (.escalation c) s)
    | none => s

/-- R122: a SEARCHING or LOST remote comes into service. The SET that its pass owes coalesces with the one queued here. -/
def enterService (z : Zone) (s : State) : State :=
  let wasLost := (s.remote z).state == .lost
  let st := serviceState s z
  let s := s.modRemote z fun r =>
    { r with state := st, overdrive := 0, behindBreak := if wasLost then false else r.behindBreak }
  let s := queueSet z (passResults z s)
  if wasLost then logZone .remoteBack .all z s else s

/-- R138 step 5: entry to service (R122), or the state that the alarm set of a remote in service gives (R124). -/
def replyService (z : Zone) (s : State) : State :=
  match (s.remote z).state with
  | .searching => if s.recoveryCount ≤ (s.remote z).goodCount then enterService z s else s
  | .lost => if s.recoveryCount ≤ (s.remote z).goodCount then enterService z s else s
  | .alive => if anyAlarm s z then pass z (s.modRemote z fun r => { r with state := .degraded }) else s
  | .degraded => if anyAlarm s z then s else pass z (s.modRemote z fun r => { r with state := .alive })
  | .unbound => s
  | .isolated => s

/-- R138 step 6, R20, R78: the occupancy of the four cells of a zone in service. -/
def replyOccupancy (z : Zone) (st : Status) (s : State) : State :=
  if inService s z then
    s.modZoneCells z fun t c => { c with occupancy := tget s.weights (tget st.codes t) }
  else s

/-- R135: the reply's echo differs from the last-sent values, and no SET waits or is owed. -/
def echoDiffers (s : State) (z : Zone) (st : Status) : Bool :=
  let r := s.remote z
  (st.applied != r.sentLimit || st.mute != octet (bit r.sentMute)) && !r.setOwed &&
    match (s.zone z).binding with
    | some b => !setWaiting (s.link b.port) b.pos
    | none => false

/-- R138 step 7, R135: echo convergence. -/
def replyEcho (z : Zone) (st : Status) (s : State) : State :=
  if inService s z || (s.remote z).state == .isolated then
    (if echoDiffers s z st then queueSet z s else s)
  else s

/-- R138: a reply delivered for a zone, its seven steps in order. -/
def handleReply (z : Zone) (st : Status) (s : State) : State :=
  let s := replyCounts z st s
  let s := replyOverdrive z st s
  let s := replyAlarms z st s
  let s := replyEscalation z s
  let s := replyService z s
  let s := replyOccupancy z st s
  replyEcho z st s

/-! ### Transmission reports (R134) -/

/-- R111, R134: the report of a transmitted SET goes to the record of the zone bound at its port and position. -/
def reportSet (f : FPort) (p : Pos) (limit : Nat) (mute : Bool) (s : State) : State :=
  match zoneAt s f p with
  | some z => s.modRemote z fun r => { r with sentLimit := limit, sentMute := mute }
  | none => s

/-! ### Chain-break correlation (R136) -/

/-- The zone bound at a position is LOST. -/
def posLost (s : State) (f : FPort) (p : Pos) : Bool :=
  match zoneAt s f p with
  | some z => (s.remote z).state == .lost
  | none => false

/-- The zone bound at a position has lost this round set. -/
def posFlagged (s : State) (f : FPort) (p : Pos) : Bool :=
  match zoneAt s f p with
  | some z => (s.remote z).lostThisRound
  | none => false

/-- R136: the positions of the group: LOST with lost this round set. -/
def lossGroup (s : State) (f : FPort) : List Pos :=
  (boundPositions s f).filter fun p => posFlagged s f p && posLost s f p

/-- R136 case 3: the lowest bound position from which every bound position up is LOST. -/
def breakStart (s : State) (f : FPort) : Option Pos :=
  let bound := boundPositions s f
  bound.find? fun k => bound.all fun p => decide (p < k) || posLost s f p

/-- R136 case 3: every member of the group is at k or above, and the highest bound position below k answered. -/
def breakTest (s : State) (f : FPort) (results : List (Pos × Bool)) (k : Pos) : Bool :=
  ((lossGroup s f).all fun p => decide (k ≤ p)) &&
    match ((boundPositions s f).filter fun p => decide (p < k)).getLast? with
    | some p => results.contains (p, true)
    | none => false

/-- Appends one REMOTE_LOST with its zone for each of the positions given, in their order. -/
def logLost (f : FPort) (ps : List Pos) (s : State) : State :=
  ps.foldl (fun s p => match zoneAt s f p with
    | some z => logZone .remoteLost .all z s
    | none => s) s

/-- R136: sets the behind break mark on the positions given. -/
def markBehind (f : FPort) (ps : List Pos) (s : State) : State :=
  ps.foldl (fun s p => match zoneAt s f p with
    | some z => s.modRemote z fun r => { r with behindBreak := true }
    | none => s) s

/-- R136: the entries of the group. -/
def groupEntries (f : FPort) (results : List (Pos × Bool)) (s : State) : State :=
  let bound := boundPositions s f
  let group := lossGroup s f
  if group.isEmpty then s
  else if bound.all (posLost s f) then
    appendLog { logEntry .portDown .all s with port := some f, count := some bound.length } s
  else
    match breakStart s f with
    | some k =>
      if breakTest s f results k then
        let n := (bound.filter fun p => decide (k ≤ p)).length
        markBehind f group
          (appendLog { logEntry .chainBreak .all s with port := some f, pos := some k, count := some n } s)
      else logLost f group s
    | none => logLost f group s

/-- R136: clears lost this round on every record bound to the port. -/
def clearLost (f : FPort) (s : State) : State :=
  (boundPositions s f).foldl (fun s p => match zoneAt s f p with
    | some z => s.modRemote z fun r => { r with lostThisRound := false }
    | none => s) s

/-- R136: a round end: the group's entries, then REMOTE_LOST for each record that entered LOST in the round and has left
it, and the flags cleared. -/
def roundEnd (f : FPort) (results : List (Pos × Bool)) (s : State) : State :=
  let left := (boundPositions s f).filter fun p => posFlagged s f p && !posLost s f p
  clearLost f (logLost f left (groupEntries f results s))

end Sys2Proof.Machine
end

