-- ==== Sys2Proof/Machine/Link.lean ====
section
/-! DEFINITION. The Link Controllers (chapter 6): the turns of a poll round, the reply window, transmission, optical
lock and the receiver. -/

namespace Sys2Proof.Machine

/-! ### Turns and windows -/

/-- R109, R110: the turn of a position begins. On a LOCKED port the `k` frames of the gap are sent first, then the POLL;
on a HUNTING port the window opens at once with no POLL. -/
def turnLink (pos : Pos) (results : List (Pos × Bool)) (k : Nat) (l : LinkRec) : LinkRec :=
  if !l.locked then { l with sending := .nothing, round := some ⟨pos, .window false, results⟩ }
  else if 0 < k then { l with sending := .queued, round := some ⟨pos, .gap k, results⟩ }
  else { l with sending := .poll, round := some ⟨pos, .poll, results⟩ }

/-- R109, R110: begins the turn of a position of a port. -/
def startTurn (f : FPort) (pos : Pos) (results : List (Pos × Bool)) (k : Nat) (s : State) : State :=
  s.modLink f (turnLink pos results k)

/-- R108: the result of a close goes to the zone bound at the position then; with none bound it is discarded. -/
def deliver (f : FPort) (pos : Pos) (reply : Option Status) (s : State) : State :=
  match zoneAt s f pos with
  | none => s
  | some z =>
    match reply with
    | some st => handleReply z st s
    | none => handleMiss z s

/-- R108, R110: the round of a port ends, and the transmitter goes back to the queue. -/
def endRound (f : FPort) (results : List (Pos × Bool)) (s : State) : State :=
  startQueued f ((roundEnd f results s).modLink f fun l => { l with round := none })

/-- R106, R109, R110: the gap of a position has ended and its turn begins. A position whose binding has been removed in the
gap is not polled. That the turn then goes to the lowest position above it that is bound now, and that with none the round
ends here, is a DESIGN CHOICE (log 16). -/
def beginTurn (f : FPort) (pos : Pos) (results : List (Pos × Bool)) (s : State) : State :=
  match (boundPositions s f).find? fun p => decide (pos ≤ p) with
  | some p => startTurn f p results 0 s
  | none => endRound f results s

/-- R106, R108, R110: what follows a close: the turn of the lowest bound position above, its gap carrying the frames
queued by now, or the round end and the queue. A position below the one chosen here that is bound in the gap waits for
the next round (DESIGN CHOICE, log 30). -/
def afterClose (f : FPort) (pos : Pos) (results : List (Pos × Bool)) (s : State) : State :=
  match (boundPositions s f).find? fun p => decide (pos < p) with
  | some next => startTurn f next results (s.link f).queue.length s
  | none => endRound f results s

/-- R107, R108: closes the open reply window, as a reply or (with none) as a miss; nothing where none is open. -/
def closeWindow (f : FPort) (reply : Option Status) (s : State) : State :=
  match (s.link f).round with
  | some ⟨pos, .window _, results⟩ =>
    finish s (afterClose f pos (results ++ [(pos, reply.isSome)]) (deliver f pos reply s))
  | _ => s

/-! ### Events of the transmitter and the timers -/

/-- R105: the poll timer expiry at one Link Controller. A queued frame being sent is completed first. -/
def startRound (f : FPort) (s : State) : State :=
  if (s.link f).round.isSome then s
  else
    match boundPositions s f with
    | [] => s
    | pos :: _ => startTurn f pos [] (if (s.link f).sending = .queued then 1 else 0) s

/-- R105, R118: the poll timer expiry; the next one falls one present poll interval later. -/
def pollExpiry (s : State) : State :=
  if s.starting || !s.pollTimer.running then s
  else allFPorts.foldl (fun s f => startRound f s) { s with pollTimer := ⟨true, s.pollInterval⟩ }

/-- R107: the last octet of a POLL has been sent; its reply window opens. -/
def pollEnd (f : FPort) (s : State) : State :=
  match (s.link f).round, (s.link f).sending with
  | some ⟨pos, .poll, results⟩, .poll =>
    if s.starting then s
    else s.modLink f fun l =>
      { l with sending := .nothing, round := some ⟨pos, .window true, results⟩, lineOut := pollChars pos }
  | _, _ => s

/-- R107: the reply timer expiry; with no window open it has no effect. -/
def replyExpiry (f : FPort) (s : State) : State := if s.starting then s else closeWindow f none s

/-- R111: the report of a transmitted frame; a CHAIN_MUTE makes none. -/
def reportFrame (f : FPort) (fr : Frame) (s : State) : State :=
  match fr with
  | .set pos limit mute => reportSet f pos limit mute s
  | .chainMute => s

/-- R110: what the transmitter sends after a queued frame: the rest of the gap, then the turn that the gap
precedes, or the queue. -/
def sendNext (f : FPort) (s : State) : State :=
  match (s.link f).round with
  | some ⟨pos, .gap n, results⟩ =>
    if 1 < n ∧ (s.link f).locked = true then startTurn f pos results (n - 1) s else beginTurn f pos results s
  | _ => startQueued f s

/-- R111, R114: the last octet of a queued frame has been sent: the frame leaves the queue, its transmission is reported
and an owed SET enters. -/
def frameEnd (f : FPort) (s : State) : State :=
  match (s.link f).sending, (s.link f).queue with
  | .queued, fr :: rest =>
    if s.starting then s
    else
      let s := s.modLink f fun l => { l with queue := rest, sending := .nothing, lineOut := queuedChars fr }
      sendNext f (takeOwed f (reportFrame f fr s))
  | _, _ => s

/-! ### Optical lock -/

/-- R100, R109: what a loss of lock makes of the round: a gap ends and the turn that it precedes begins, a POLL in
transmission gives way to the position's window, and a window open runs on to a miss (log 15). -/
def roundAtLoss (f : FPort) (s : State) : State :=
  match (s.link f).round with
  | some ⟨pos, .gap _, results⟩ => beginTurn f pos results s
  | some r => s.modLink f fun l => { l with round := some { r with phase := .window false } }
  | none => s

/-- R100: a loss of lock. During start-up only the lock condition changes. A SET that is abandoned while its remote is SET
owed waits again, and the mark stays (DESIGN CHOICE, log 33). -/
def lockLost (f : FPort) (s : State) : State :=
  let s := s.modLink f fun l => { l with lockCond := false }
  if s.starting || !(s.link f).locked then s
  else roundAtLoss f (s.modLink f fun l =>
    { l with locked := false, rx := .seeking, afterC3 := false, sending := .nothing })

/-- R100, R110: a return of lock. During start-up only the lock condition changes. -/
def lockBack (f : FPort) (s : State) : State :=
  let s := s.modLink f fun l => { l with lockCond := true }
  if s.starting || (s.link f).locked then s
  else startQueued f (s.modLink f fun l => { l with locked := true, rx := .seeking, afterC3 := false })

/-! ### The receiver -/

/-- The receive outcomes of a complete frame (6.3). TRUNCATED and a BAD_LENGTH length octet end a frame earlier. -/
inductive ReceiveOutcome where
  | good | badLength | badCrc | wrongAddress
deriving DecidableEq, Repr

/-- The octets the CRC of a complete frame covers: all but the length octet and the two CRC octets. -/
def coveredOctets (os : List Byte) : List Byte := (os.drop 1).take (os.length - 3)

/-- The CRC field of a complete frame. -/
def crcField (os : List Byte) : Nat := be16 (os.getD (os.length - 2) 0) (os.getD (os.length - 1) 0)

/-- R104: the outcome of a complete frame, its octets from the length octet on. -/
def frameOutcome (l : LinkRec) (os : List Byte) : ReceiveOutcome :=
  if crcField os ≠ (crc16 (coveredOctets os)).toNat then .badCrc
  else if (replyTimer l).map (fun p => octet (posNumber p)) ≠ some (os.getD 1 0) then .wrongAddress
  else if os.getD 2 0 = 0x81 ∧ os.length ≠ 14 then .badLength
  else .good

/-- 11.1, R179: the six fields of a STATUS frame, its octets from the length octet on. -/
def statusFields (os : List Byte) : Status where
  flags := os.getD 3 0
  temp := os.getD 4 0
  output := be16 (os.getD 5 0) (os.getD 6 0)
  applied := be16 (os.getD 7 0) (os.getD 8 0)
  mute := os.getD 9 0
  codes :=
    let hi := fun (b : Byte) => (⟨b.toNat / 16 % 16, by omega⟩ : Fin 16)
    let lo := fun (b : Byte) => (⟨b.toNat % 16, by omega⟩ : Fin 16)
    #v[hi (os.getD 10 0), lo (os.getD 10 0), hi (os.getD 11 0), lo (os.getD 11 0)]

/-- R109: the open window can close as a reply, because its POLL went out. -/
def answerable (l : LinkRec) : Bool :=
  match l.round with
  | some ⟨_, .window a, _⟩ => a
  | _ => false

/-- R104: a complete frame is a reply when it is GOOD, of kind STATUS, and the window can still take one. -/
def replyIn (l : LinkRec) (os : List Byte) : Option Status :=
  if frameOutcome l os = .good ∧ os.getD 2 0 = 0x81 ∧ answerable l = true then some (statusFields os) else none

/-- R104: a frame is complete: the receiver returns to SEEKING, and a reply closes the window. -/
def frameDone (f : FPort) (os : List Byte) (s : State) : State :=
  let r := replyIn (s.link f) os
  let s := s.modLink f fun l => { l with rx := .seeking }
  match r with
  | some st => closeWindow f (some st) s
  | none => s

/-- R103: the length octet is below 5 or above 64. -/
def badLengthOctet (b : Byte) : Bool := decide (b.toNat < 5) || decide (64 < b.toNat)

/-- R103: a data octet at the receiver. -/
def takeDataOctet (f : FPort) (b : Byte) (s : State) : State :=
  match (s.link f).rx with
  | .seeking => s
  | .collecting [] =>
    if badLengthOctet b then s.modLink f fun l => { l with rx := .seeking }
    else s.modLink f fun l => { l with rx := .collecting [b] }
  | .collecting (n :: os) =>
    let os' := n :: (os ++ [b])
    if os'.length = n.toNat then frameDone f os' s
    else s.modLink f fun l => { l with rx := .collecting os' }

/-- R103: one character from the fibre. A framing C3h followed at once by a framing 5Ah is a start pattern and begins a
frame (TRUNCATED for one being collected); every other framing character is passed over. A HUNTING port takes none
(R100). -/
def takeChar (f : FPort) (s : State) (c : LineChar) : State :=
  if s.starting || !(s.link f).locked then s
  else
    match c with
    | .framing b =>
      if (s.link f).afterC3 && b == 0x5A then s.modLink f fun l => { l with rx := .collecting [], afterC3 := false }
      else s.modLink f fun l => { l with afterC3 := b == 0xC3 }
    | .data b => takeDataOctet f b (s.modLink f fun l => { l with afterC3 := false })

/-- R103, R104: characters from the fibre, one after another. -/
def takeChars (f : FPort) (cs : List LineChar) (s : State) : State := cs.foldl (takeChar f) s

end Sys2Proof.Machine
end

