-- ==== Sys2Proof/Machine/Plan.lean ====
section
/-! DEFINITION. The Plan Table (chapter 1, R9 to R24; R61): target writes, alternates, limits, pins, the venue mode and
dimming. -/

namespace Sys2Proof.Machine

/-! ### Targets and alternates -/

/-- R17: an element of WRITE TARGETS for the zone at the pointer. -/
def targetElement (t : Tenant) (b : Byte) (s : State) : State :=
  let z := (s.port (.tenant t)).pointer
  advancePointer (.tenant t)
    (match destOf (s.tenant t).sectorCount b with
    | none => setResult (.tenant t) .skipped s
    | some d =>
      if (s.zone z).pinned then setResult (.tenant t) .skipped s else finish s (setTarget z t d .tenant s))

/-- R18: REQUEST MOVE. -/
def requestMove (t : Tenant) (zone dest : Byte) (s : State) : State :=
  match zoneOf zone, destOf (s.tenant t).sectorCount dest with
  | some z, some d =>
    if (s.zone z).pinned then setResult (.tenant t) .skipped s
    else finish s (setResult (.tenant t) .ok (setTarget z t d .tenant s))
  | _, _ => setResult (.tenant t) .range s

/-- R61: CANCEL MOVE. -/
def cancelMove (t : Tenant) (zone : Byte) (s : State) : State :=
  match zoneOf zone with
  | none => setResult (.tenant t) .range s
  | some z =>
    if (s.zone z).pinned then setResult (.tenant t) .skipped s
    else finish s (setResult (.tenant t) .ok (setTarget z t (s.cell z t).home .tenant s))

/-- R19: an octet of an alternates element that the element may hold: 15 for no entry, or a sector below the count. -/
def validAlternate (count : Nat) (b : Byte) : Bool := b == 0x0F || (sectorOf count b).isSome

/-- R19: a list with every repeat after the first appearance dropped. -/
def dropRepeats : List Sector → List Sector
  | [] => []
  | k :: rest => k :: (dropRepeats rest).filter fun j => j != k

/-- R19: the list an alternates element gives, if it is not skipped. -/
def alternatesOf (count : Nat) (element : List Byte) : Option (List Sector) :=
  if element.all (validAlternate count) then some (dropRepeats (element.filterMap (sectorOf count))) else none

/-- R19: an element of WRITE ALTERNATES for the zone at the pointer. -/
def alternatesElement (t : Tenant) (element : List Byte) (s : State) : State :=
  let z := (s.port (.tenant t)).pointer
  advancePointer (.tenant t)
    (match alternatesOf (s.tenant t).sectorCount element with
    | none => setResult (.tenant t) .skipped s
    | some ks => s.modCell z t fun c => { c with alternates := ks })

/-! ### Limits -/

/-- R10, R11: stores a zone's live limit, with a pass if it changed. -/
def storeLive (z : Zone) (v : Nat) (s : State) : State :=
  let s' := s.modZone z fun r => { r with live := v }
  if (s.zone z).live = v then s' else pass z s'

/-- R10: SET LIMIT. -/
def setLimit (zone hi lo : Byte) (s : State) : State :=
  match zoneOf zone with
  | none => setResult .venue .range s
  | some z =>
    setResult .venue (clampResult (decide ((s.zone z).ceiling < be16 hi lo)))
      (storeLive z (min (be16 hi lo) (s.zone z).ceiling) s)

/-- R11: an element of WRITE LIMITS for the zone at the pointer. -/
def limitElement (hi lo : Byte) (s : State) : State :=
  let z := (s.port .venue).pointer
  advancePointer .venue
    (markResult .venue (decide ((s.zone z).ceiling < be16 hi lo)) .clamped
      (storeLive z (min (be16 hi lo) (s.zone z).ceiling) s))

/-! ### Pins -/

/-- R12: the target a pin leaves at a cell: the destination of its RAMPING move, else its home. -/
def pinnedTarget (m : Option Move) (home : Dest) : Dest :=
  match m with
  | some m => if m.state = .ramping then (if m.dir = .forward then m.dst else m.src) else home
  | none => home

/-- R12: pins a zone that is not pinned: its targets are settled and its WAITING moves leave the queue. -/
def pinRecord (z : Zone) (s : State) : State :=
  let s := s.modZoneCells z fun t c => { c with target := pinnedTarget (moveAt s z t) c.home }
  let s := { s with moves := s.moves.filter fun m => !(m.zone == z && m.state == MoveState.waiting) }
  s.modZone z fun r => { r with pinned := true }

/-- R12: PIN ZONE. -/
def pinZone (zone : Byte) (s : State) : State :=
  match zoneOf zone with
  | none => setResult .venue .range s
  | some z =>
    if (s.zone z).pinned then setResult .venue .ok s else finish s (setResult .venue .ok (pinRecord z s))

/-- R13: UNPIN ZONE. -/
def unpinZone (zone : Byte) (s : State) : State :=
  match zoneOf zone with
  | none => setResult .venue .range s
  | some z => setResult .venue .ok (s.modZone z fun r => { r with pinned := false })

/-! ### Venue mode -/

/-- R23: sets the venue mode and returns the wake count to 0, with a pass at every zone whose dimmed flag changes. -/
def setMode (m : VenueMode) (s : State) : State := passDimmed s { s with venueMode := m, wakeCount := 0 }

/-- R23: SET VENUE MODE. -/
def setVenueMode (mode : Byte) (s : State) : State :=
  match modeOf mode with
  | none => setResult .venue .range s
  | some m => setResult .venue .ok (setMode m s)

/-- R24, 11.5, R179: the standby-dark set an octet gives: bit c for class code c, bits 7 to 4 ignored. -/
def standbyFlags (b : Byte) : Vector Bool 4 := #v[b.getLsbD 0, b.getLsbD 1, b.getLsbD 2, b.getLsbD 3]

/-- R24: SET STANDBY CLASSES. -/
def setStandbyClasses (flags : Byte) (s : State) : State :=
  setResult .venue .ok (passDimmed s { s with standbyDark := standbyFlags flags })

/-- Holds a value within 1 to `top`. -/
def clampFrom1 (top v : Nat) : Nat := max 1 (min v top)

/-- R24: SET WAKE. -/
def setWake (hi lo debounce : Byte) (s : State) : State :=
  setResult .venue (clampResult (clampFrom1 15 debounce.toNat != debounce.toNat))
    { s with wakeThreshold := be16 hi lo, wakeDebounce := clampFrom1 15 debounce.toNat, wakeCount := 0 }

end Sys2Proof.Machine
end

