-- ==== Sys2Proof/Machine/Census.lean ====
section
/-! DEFINITION. The Census Unit (chapter 5): the weight table, the spreading settings, sector loads, overload states, the
balancer, hold-offs and waking. -/

namespace Sys2Proof.Machine

/-! ### Settings -/

/-- R79: an element of WRITE WEIGHTS for entry `i`. -/
def weightElement (i : Fin 16) (b : Byte) (s : State) : State := { s with weights := tset s.weights i b.toNat }

/-- R81: SET CENSUS. The expiry already due keeps its time (`Timer.due`). -/
def setCensus (interval : Byte) (s : State) : State :=
  setResult .venue (clampResult (interval.toNat == 0)) { s with censusInterval := max 1 interval.toNat }

/-- R89: the settings SET SPREADING stores. -/
def spreadingOf (flags hiH hiL loH loL debounce long hold : Byte) : Spreading where
  enable := flags.getLsbD 0
  repeats := flags.getLsbD 1
  high := be16 hiH hiL
  low := be16 loH loL
  debounce := clampFrom1 15 debounce.toNat
  longCount := max 4 long.toNat
  holdOff := hold.toNat

/-- R89: SET SPREADING on the port of tenant `t`. -/
def setSpreading (t : Tenant) (flags hiH hiL loH loL debounce long hold : Byte) (s : State) : State :=
  let v := spreadingOf flags hiH hiL loH loL debounce long hold
  if 12240 < v.high ∨ v.high ≤ v.low then setResult (.tenant t) .range s
  else
    setResult (.tenant t) (clampResult (v.debounce != debounce.toNat || v.longCount != long.toNat))
      (s.modTenant t fun r => { r with spreading := v })

/-! ### Loads (R83) -/

/-- R83: what the census counts a cell toward: no sector where the home is DARK; else the to sector of a RAMPING move of
weight 16 or more, which may be DARK too; else the home. -/
def countedToward (s : State) (z : Zone) (t : Tenant) : Dest :=
  if (s.cell z t).home = .dark then .dark
  else
    match moveAt s z t with
    | some m => if m.state = .ramping ∧ 16 ≤ m.weight then m.dst else (s.cell z t).home
    | none => (s.cell z t).home

/-- R83: the measured load of a tenant's sector. -/
def sectorLoad (s : State) (t : Tenant) (k : Sector) : Nat :=
  allZones.foldl (fun n z => if countedToward s z t = .sector k then n + (s.cell z t).occupancy else n) 0

/-! ### Overload states (R85, R86) -/

/-- R85: a rise that has reached `k`. -/
def riseTo (debounce k : Nat) : Overload := if debounce ≤ k then .overloaded 0 else .rising k

/-- R86: a fall that has reached `k`, holding the overload count `n`. -/
def fallTo (debounce k n : Nat) : Overload := if debounce ≤ k then .calm else .falling k n

/-- R85, R86: the next overload state of a sector, from its load and the tenant's settings. -/
def nextOverload (v : Spreading) (load : Nat) : Overload → Overload
  | .calm => if v.high ≤ load then riseTo v.debounce 1 else .calm
  | .rising k => if v.high ≤ load then riseTo v.debounce (k + 1) else .calm
  | .overloaded n => if v.low ≤ load then .overloaded (min (n + 1) 65535) else fallTo v.debounce 1 n
  | .falling k n => if v.low ≤ load then .overloaded n else fallTo v.debounce (k + 1) n

/-- R87: the count of the SECTOR_SATURATED entry a census calls for, if it calls for one: an OVERLOADED count raised to a
new value that equals the long count or, with repeat set, is a multiple of it. -/
def saturated (v : Spreading) (before after : Overload) : Option Nat :=
  match before, after with
  | .overloaded n, .overloaded m =>
    if n < m ∧ (m = v.longCount ∨ (v.repeats = true ∧ m % v.longCount = 0)) then some m else none
  | _, _ => none

/-- R82 step 1: measures a sector below the count and advances its overload state; a sector at or above the count has no
state (R84). The last proposal is none until the balancer makes one (R93). -/
def measureSector (s : State) (t : Tenant) (k : Sector) (c : SectorCensus) : SectorCensus :=
  if k.val < (s.tenant t).sectorCount then
    let load := sectorLoad s t k
    { load := load, overload := nextOverload (s.tenant t).spreading load c.overload, proposal := none }
  else c

/-- R83, R85, R86: measures an ACTIVE tenant. -/
def measureTenant (t : Tenant) (s : State) : State :=
  s.modTenant t fun r => { r with census := tmapIdx (measureSector s t) r.census }

/-- R87: the SECTOR_SATURATED entries of a tenant, its sectors ascending. -/
def saturatedEntries (before after : State) (t : Tenant) : List Entry :=
  if isActive before t then
    allSectors.filterMap fun k =>
      (saturated (before.tenant t).spreading (tget (before.tenant t).census k).overload
        (tget (after.tenant t).census k).overload).map fun n =>
        { logEntry .sectorSaturated (.tenant t) before with tenant := some t, sector := some k, count := some n }
  else []

/-! ### The balancer (R91 to R93) -/

/-- R91: a cell is eligible for a proposal from sector `k`. -/
def eligible (s : State) (t : Tenant) (k : Sector) (z : Zone) : Bool :=
  let c := s.cell z t
  c.home == .sector k && c.target == c.home && (moveAt s z t).isNone && !(s.zone z).pinned && inService s z &&
    c.holdOff == 0 && decide (0 < c.occupancy)

/-- R92: puts a zone into a list that is in descending order of occupancy, behind the zones of equal occupancy. -/
def insertByOccupancy (occ : Zone → Nat) (z : Zone) : List Zone → List Zone
  | [] => [z]
  | y :: rest => if occ y < occ z then z :: y :: rest else y :: insertByOccupancy occ z rest

/-- R92: the eligible cells for sector `k` in descending order of occupancy, equal ones in ascending zone order. -/
def candidates (s : State) (t : Tenant) (k : Sector) : List Zone :=
  (allZones.filter (eligible s t k)).foldl (fun l z => insertByOccupancy (fun y => (s.cell y t).occupancy) z l) []

/-- A sector is OVERLOADED. -/
def isOverloaded (s : State) (t : Tenant) (k : Sector) : Bool :=
  match (tget (s.tenant t).census k).overload with
  | .overloaded _ => true
  | _ => false

/-- R92: an alternate qualifies for a cell. -/
def qualifies (s : State) (t : Tenant) (work : Vector Nat 6) (z : Zone) (a : Sector) : Bool :=
  decide (a.val < (s.tenant t).sectorCount) && !isOverloaded s t a &&
    decide (tget work a + (s.cell z t).occupancy < (s.tenant t).spreading.high)

/-- R92: the winning cell for sector `k` and its destination. -/
def winner (s : State) (t : Tenant) (work : Vector Nat 6) (k : Sector) : Option (Zone × Sector) :=
  (candidates s t k).findSome? fun z =>
    ((s.cell z t).alternates.find? (qualifies s t work z)).map fun a => (z, a)

/-- R93: the working loads after a cell goes from sector `k` to `a`. -/
def moveWork (work : Vector Nat 6) (k a : Sector) (n : Nat) : Vector Nat 6 :=
  tmod (tmod work k fun w => w - n) a fun w => w + n

/-- R93: a proposal: the target with source BALANCER, the hold-off, and the sector's last proposal. -/
def propose (t : Tenant) (k : Sector) (z : Zone) (a : Sector) (s : State) : State :=
  let s := setTarget z t (.sector a) .balancer s
  let s := s.modCell z t fun c => { c with holdOff := (s.tenant t).spreading.holdOff }
  s.modTenant t fun r => { r with census := tmod r.census k fun c => { c with proposal := some (z, a) } }

/-- R91: one sector's turn; the working loads pass from sector to sector. -/
def balanceSector (t : Tenant) (x : State × Vector Nat 6) (k : Sector) : State × Vector Nat 6 :=
  let (s, work) := x
  if decide (k.val < (s.tenant t).sectorCount) && isOverloaded s t k then
    match winner s t work k with
    | some (z, a) => (propose t k z a s, moveWork work k a (s.cell z t).occupancy)
    | none => (s, work)
  else (s, work)

/-- R91 to R93: the proposals of a tenant with spreading enabled; the working loads start equal to the measured loads. -/
def balance (t : Tenant) (s : State) : State :=
  if (s.tenant t).spreading.enable then
    (allSectors.foldl (balanceSector t) (s, tmapIdx (fun _ c => c.load) (s.tenant t).census)).1
  else s

/-- R82 step 1: the census of one tenant. -/
def censusTenant (t : Tenant) (s : State) : State := if isActive s t then balance t (measureTenant t s) else s

/-! ### Hold-offs and waking -/

/-- R95: a cell's hold-off falls by 1 if it is above 0. -/
def countDown (c : Cell) : Cell := { c with holdOff := c.holdOff - 1 }

/-- R82 step 2, R95: every hold-off above 0 of an admitted tenant falls by 1. -/
def countHoldOffs (s : State) : State :=
  let row := fun (_ : Zone) (v : Vector Cell 4) => tmapIdx (fun t c => if admitted s t then countDown c else c) v
  { s with cells := tmapIdx row s.cells }

/-- R98: the wake total. -/
def wakeTotal (s : State) : Nat :=
  allZones.foldl (fun n z => if dimmed s z then n else n + sumTenants fun t => (s.cell z t).occupancy) 0

/-- R98: the wake count after a STANDBY census. -/
def nextWakeCount (s : State) : Nat :=
  if s.wakeThreshold = 0 then 0 else if s.wakeThreshold ≤ wakeTotal s then s.wakeCount + 1 else 0

/-- R98, R99: a census wakes the venue (log 21). -/
def wakes (s : State) : Bool :=
  s.venueMode == .standby && s.wakeThreshold != 0 && decide (s.wakeDebounce ≤ nextWakeCount s)

/-- R82 step 3, R98, R99: the wake step; a wake sets the mode to EVENT, with the passes of R23. -/
def wakeStep (s : State) : State :=
  if s.venueMode = .standby then
    if wakes s then setMode .event s else { s with wakeCount := nextWakeCount s }
  else s

/-- R82 step 4: the entries of a census, in their order. -/
def censusEntries (before measured : State) : List Entry :=
  allTenants.flatMap (saturatedEntries before measured) ++
    (if wakes before then [logEntry .venueWake .all before] else [])

/-- R82: a census timer expiry. The next expiry falls one present interval later (R81). An expiry cannot come while the
timer does not run (R159). -/
def censusExpiry (s : State) : State :=
  if !s.censusTimer.running then s
  else
    let s1 := { s with censusTimer := ⟨true, s.censusInterval⟩ }
    let s2 := allTenants.foldl (fun s t => censusTenant t s) s1
    let s3 := wakeStep (countHoldOffs s2)
    finish s ((censusEntries s1 s2).foldl (fun s e => appendLog e s) s3)

end Sys2Proof.Machine
end

