-- ==== Sys2Proof/Machine/Reads.lean ====
section
/-! DEFINITION. What the reads report (R22, R40, R41, R80, R97, R176) in the layouts of 11.3 and 11.4. -/

namespace Sys2Proof.Machine

/-- R22, 11.4: the status octet of a READ PLAN element. -/
def planStatus (s : State) (t : Tenant) (z : Zone) : Nat :=
  let move := match moveAt s z t with
    | none => 0
    | some m => 4 * (if m.state = .ramping then 2 else 1) + 16 * (if m.dir = .reverse then 1 else 0) +
        32 * originCode m.origin
  bit (pendingCell s z t) + 2 * bit (s.zone z).pinned + move

/-- 11.4: the three alternates octets, 0Fh for each unused place. -/
def alternatesOctets (ks : List Sector) : List Byte :=
  let code := fun (i : Nat) => match ks[i]? with
    | some k => octet k.val
    | none => 0x0F
  [code 0, code 1, code 2]

/-- R22, 11.4: the READ PLAN element of a tenant's cell. -/
def planElement (s : State) (t : Tenant) (z : Zone) : List Byte :=
  let c := s.cell z t
  [octet (destCode c.home), octet (destCode c.target)] ++ alternatesOctets c.alternates ++
    [octet c.holdOff, octet c.occupancy, octet (planStatus s t z), octet (((moveAt s z t).map Move.weight).getD 0)]

/-- R40, 11.4: the READ GRANTS element of a tenant's cell. -/
def grantsElement (s : State) (t : Tenant) (z : Zone) : List Byte :=
  let c := s.cell z t
  octets16 c.request ++ octets16 c.grant ++ octets16 c.gain

/-- R41, 11.4: the READ ZONES element of a zone. -/
def zonesElement (s : State) (z : Zone) : List Byte :=
  let zr := s.zone z
  let r := s.remote z
  octets16 zr.ceiling ++ octets16 zr.live ++ [octet (derateFactor s z)] ++ octets16 zr.effLimit ++
    octets16 (grantTotal s z) ++ octets16 (headroom s z) ++
    [octet (classIdx zr.cls).val, octet (bit (dimmed s z) + 2 * bit zr.pinned + 4 * bit (inService s z)),
      octet (remoteStateCode r.state), octetOr (r.cause.map causeCode), octet (alarmBits s z),
      octet (bit r.unreachable + 2 * bit r.behindBreak + 4 * bit r.silentReported), r.lastTemp] ++
    octets16 r.lastOutput ++ octets16 r.lastApplied ++ [r.lastMute]

/-- 11.4: the code, the count and the held overload count of an overload state. -/
def overloadFields : Overload → Nat × Nat × Nat
  | .calm => (0, 0, 0)
  | .rising k => (1, k, 0)
  | .overloaded n => (2, n, 0)
  | .falling k n => (3, k, n)

/-- R97, 11.4: the READ LOADS element of a sector. -/
def loadsElement (s : State) (t : Tenant) (k : Sector) : List Byte :=
  let c := tget (s.tenant t).census k
  let (code, count, held) := overloadFields c.overload
  [octet k.val] ++ octets16 c.load ++ [octet code] ++ octets16 count ++ octets16 held ++
    [octetOr (c.proposal.map fun x => x.1.val), octetOr (c.proposal.map fun x => x.2.val)]

/-- R176, 11.3: the READ STATUS reply of a port. -/
def statusReply (p : Port) (s : State) : List Byte :=
  let q := s.port p
  [q.lastCode.getD 0xFF, octet (resultCode q.result), reasonsOctet q,
    match p with
    | .tenant t => octet (tenantStateCode (s.tenant t).state)
    | .venue => 0xFF]

/-! ### Taking and counting elements (R167, R170) -/

/-- The size of an element, or of a whole reply (11.3, 11.4). -/
def readSize : ReadFrom → Nat
  | .plan _ => 9
  | .grants _ => 6
  | .zones => 23
  | .loads _ _ => 10
  | .weights _ => 1
  | .reply os => os.length

/-- R170: the octets of the element due on a port, as they stand; a reply is already a copy. -/
def readElement (p : Port) (s : State) : ReadFrom → List Byte
  | .plan t => planElement s t (s.port p).pointer
  | .grants t => grantsElement s t (s.port p).pointer
  | .zones => zonesElement s (s.port p).pointer
  | .loads t k => loadsElement s t k
  | .weights i => [octet (tget s.weights i)]
  | .reply os => os

/-- R97: the sector after a sector, wrapping at the tenant's count. -/
def nextSector (count : Nat) (k : Sector) : Sector := if k.val + 1 < count then k + 1 else 0

/-- R170: after the last octet of an element: the sector or entry index moves on. -/
def nextRead (s : State) : ReadFrom → ReadFrom
  | .loads t k => .loads t (nextSector (s.tenant t).sectorCount k)
  | .weights i => .weights (i + 1)
  | r => r

/-- R168: the reads over the window. -/
def windowedRead : ReadFrom → Bool
  | .plan _ => true
  | .grants _ => true
  | .zones => true
  | _ => false

end Sys2Proof.Machine
end

