-- ==== Sys2Proof/Machine/Scenes.lean ====
section
/-! DEFINITION. The Scene Store (chapter 4, R67 to R77): storing, writing, clearing and recalling scenes. -/

namespace Sys2Proof.Machine

/-- The contents of a tenant's scene slot. -/
def sceneAt (s : State) (t : Tenant) (slot : Slot) : Option (Vector SceneEntry 48) := tget (s.tenant t).scenes slot

/-- Replaces a tenant's scene slot. -/
def setScene (t : Tenant) (slot : Slot) (scene : Option (Vector SceneEntry 48)) (s : State) : State :=
  s.modTenant t fun r => { r with scenes := tset r.scenes slot scene }

/-- R68: the tenant's 48 targets as a scene. -/
def targetsScene (t : Tenant) (s : State) : Vector SceneEntry 48 := Vector.ofFn fun z => .dest (s.cell z t).target

/-- R68: STORE SCENE. -/
def storeScene (t : Tenant) (slot : Byte) (s : State) : State :=
  match slotOf slot with
  | none => setResult (.tenant t) .range s
  | some k => setResult (.tenant t) .ok (setScene t k (some (targetsScene t s)) s)

/-- R71: CLEAR SCENE. -/
def clearScene (t : Tenant) (slot : Byte) (s : State) : State :=
  match slotOf slot with
  | none => setResult (.tenant t) .range s
  | some k => setResult (.tenant t) .ok (setScene t k none s)

/-- R69: a slot with one entry written; an EMPTY slot first becomes FILLED with KEEP. -/
def writeEntry (scene : Option (Vector SceneEntry 48)) (z : Zone) (e : SceneEntry) : Vector SceneEntry 48 :=
  tset (scene.getD (Vector.replicate 48 .keep)) z e

/-- R69: an element of WRITE SCENE for the zone at the pointer. -/
def sceneElement (t : Tenant) (slot : Slot) (b : Byte) (s : State) : State :=
  let z := (s.port (.tenant t)).pointer
  advancePointer (.tenant t)
    (match sceneEntryOf (s.tenant t).sectorCount b with
    | none => setResult (.tenant t) .skipped s
    | some e => setScene t slot (some (writeEntry (sceneAt s t slot) z e)) s)

/-- R21, R73: sets a cell's hold-off to the tenant's hold-off setting. R94 has a recall leave the hold-off that a proposal
set, and the model takes R73 there too (DESIGN CHOICE, log 36). -/
def setHoldOff (z : Zone) (t : Tenant) (s : State) : State :=
  s.modCell z t fun c => { c with holdOff := (s.tenant t).spreading.holdOff }

/-- R72, R73: one entry of a recall. An entry equal to the present target is a change with no effect. -/
def recallEntry (t : Tenant) (scene : Vector SceneEntry 48) (s : State) (z : Zone) : State :=
  match tget scene z with
  | .keep => s
  | .dest d =>
    if (s.zone z).pinned then setResult (.tenant t) .skipped s
    else if (s.cell z t).target = d then s
    else setHoldOff z t (setTarget z t d .scene s)

/-- R72: RECALL SCENE, the zones in ascending order. -/
def recallScene (t : Tenant) (slot : Byte) (s : State) : State :=
  match slotOf slot with
  | none => setResult (.tenant t) .range s
  | some k =>
    match sceneAt s t k with
    | none => setResult (.tenant t) .state s
    | some scene => finish s (allZones.foldl (recallEntry t scene) (setResult (.tenant t) .ok s))

end Sys2Proof.Machine
end

