-- ==== Sys2Proof/Machine/Settings.lean ====
section
/-! DEFINITION. The venue's supervision and ramp settings (R56, R118, R126, R128, R139) and its isolation commands (R132,
R133). -/

namespace Sys2Proof.Machine

/-- R126: the class is active in the remote record of a zone. -/
def classActive (s : State) (c : AlarmClass) (z : Zone) : Bool := (alarmAt s z c).active

/-- R126: stores a derate, with the passes of a change. -/
def storeDerate (c : AlarmClass) (v : Nat) (s : State) : State :=
  let s' := { s with derate := tset s.derate (alarmIdx c) v }
  if tget s.derate (alarmIdx c) = v then s' else passes (classActive s' c) s'

/-- R126: SET DERATE. -/
def setDerate (cls derate : Byte) (s : State) : State :=
  match alarmOf cls with
  | none => setResult .venue .range s
  | some c =>
    setResult .venue (clampResult (decide (32 < derate.toNat))) (storeDerate c (min derate.toNat 32) s)

/-- R128: SET ESCALATION. -/
def setEscalation (cls setting : Byte) (s : State) : State :=
  match alarmOf cls with
  | none => setResult .venue .range s
  | some c => setResult .venue .ok { s with escalation := tset s.escalation (alarmIdx c) setting.toNat }

/-- Holds a value within 2 to 15 (R139). -/
def clampLoss (v : Nat) : Nat := max 2 (min v 15)

/-- R118: a poll interval below 5 is stored as 5. -/
def clampPoll (v : Nat) : Nat := max 5 v

/-- R118, R139: SET SUPERVISION. The poll expiry already due keeps its time (`Timer.due`). -/
def setSupervision (poll loss recovery debounce : Byte) (s : State) : State :=
  let p := clampPoll poll.toNat
  let l := clampLoss loss.toNat
  let r := clampFrom1 7 recovery.toNat
  let d := clampFrom1 8 debounce.toNat
  setResult .venue
    (clampResult (p != poll.toNat || l != loss.toNat || r != recovery.toNat || d != debounce.toNat))
    { s with pollInterval := p, lossThreshold := l, recoveryCount := r, alarmDebounce := d }

/-- R56: SET RAMP. The expiry already due keeps its time (`Timer.due`). -/
def setRamp (tick step : Byte) (s : State) : State :=
  setResult .venue (clampResult (tick.toNat == 0 || clampFrom1 32 step.toNat != step.toNat))
    { s with rampTick := max 1 tick.toNat, rampStep := clampFrom1 32 step.toNat }

/-- R132: ISOLATE REMOTE. -/
def isolateRemote (zone : Byte) (s : State) : State :=
  match zoneOf zone with
  | none => setResult .venue .range s
  | some z =>
    match (s.remote z).state with
    | .unbound => setResult .venue .state s
    | .isolated => setResult .venue .state s
    | _ => finish s (setResult .venue .ok (enterIsolated z .venue s))

/-- R133: the record at a restore. -/
def restoredRecord (r : RemoteRec) : RemoteRec :=
  { r with
    state := .searching
    cause := none
    missCount := 0
    goodCount := 0
    alarms := tmapIdx (fun _ a => { a with onset := 0, clearing := 0 }) r.alarms
    unreachable := false
    silentReported := false }

/-- R133: RESTORE REMOTE. -/
def restoreRemote (zone : Byte) (s : State) : State :=
  match zoneOf zone with
  | none => setResult .venue .range s
  | some z =>
    if (s.remote z).state = .isolated then setResult .venue .ok (pass z (s.modRemote z restoredRecord))
    else setResult .venue .state s

end Sys2Proof.Machine
end

