-- ==== Sys2Proof/Machine/Store.lean ====
section
/-! DEFINITION. The Limit Store (chapter 9, R151 to R158): pages, the store commands and the completions of the store
operations. -/

namespace Sys2Proof.Machine

/-! ### Pages -/

/-- R178: the integrity word that matches the 33 octets of a page. -/
def matchingIntegrity (v : Vector Byte 33) : Word16 := crc16 v.toList

/-- R178: a page is valid when its integrity word equals the CRC of its octets. -/
def pageValid (pg : Page) : Bool := pg.integrity == matchingIntegrity pg.octets

/-- The lock octet of a page (R178). -/
def lockOctet (pg : Page) : Byte := tget pg.octets 32

/-- R178: a page is LOCKED when it is valid and its lock octet holds 5Ah. -/
def pageLocked (pg : Page) : Bool := pageValid pg && lockOctet pg == 0x5A

/-- A page with 33 octets and the integrity word that matches them. -/
def sealPage (v : Vector Byte 33) : Page := ⟨v, matchingIntegrity v⟩

/-- R154: the octets a completed write leaves: the records, and the lock octet 00h. -/
def writtenOctets (records : Vector Byte 32) : Vector Byte 33 :=
  Vector.ofFn fun i => if h : i.val < 32 then tget records ⟨i.val, h⟩ else 0x00

/-- R156: the octets a completed lock leaves: the lock octet 5Ah. -/
def lockedOctets (v : Vector Byte 33) : Vector Byte 33 := tset v 32 0x5A

/-! ### Records -/

/-- A zone record (R151). -/
structure StoreRecord where
  ceiling : Nat
  cls : ZoneClass
  binding : Option Binding
deriving DecidableEq, Repr

/-- R180: a binding octet: FFh for none, else the port in bits 7 to 4 and the position in bits 3 to 0; none if the octet is
out of range. -/
def bindingOf (b : Byte) : Option (Option Binding) :=
  if b = 0xFF then some none
  else if h : b.toNat / 16 < 12 ∧ 1 ≤ b.toNat % 16 ∧ b.toNat % 16 ≤ 4 then
    some (some ⟨⟨b.toNat / 16, h.1⟩, ⟨b.toNat % 16 - 1, by omega⟩⟩)
  else none

/-- R151, 11.3: the record of four octets, if every value is in range. -/
def recordOf (c1 c0 cls bind : Byte) : Option StoreRecord :=
  match classOf cls, bindingOf bind with
  | some c, some b => if be16 c1 c0 ≤ 16383 then some ⟨be16 c1 c0, c, b⟩ else none
  | _, _ => none

/-- The eight records of 32 octets, in zone order, if every value is in range. -/
def recordsOf : List Byte → Option (List StoreRecord)
  | c1 :: c0 :: cls :: bind :: rest =>
    match recordOf c1 c0 cls bind, recordsOf rest with
    | some r, some rs => some (r :: rs)
    | _, _ => none
  | _ => some []

/-- The bindings that a list of records holds. -/
def bindingsOf (rs : List StoreRecord) : List Binding := rs.filterMap StoreRecord.binding

/-- R153: no two of the bindings are equal. -/
def distinctBindings : List Binding → Bool
  | [] => true
  | b :: rest => !rest.contains b && distinctBindings rest

/-- R151: the zones of a page, ascending. -/
def zonesOfPage (p : PageNo) : List Zone := (List.finRange 8).map fun i => ⟨8 * p.val + i.val, by omega⟩

/-- R151: the page of a zone. -/
def pageOfZone (z : Zone) : PageNo := ⟨z.val / 8, by omega⟩

/-- The live bindings of the zones outside a page. -/
def otherBindings (s : State) (p : PageNo) : List Binding :=
  (allZones.filter fun z => pageOfZone z != p).filterMap fun z => (s.zone z).binding

/-- R153 check 4: the values, the bindings within the page, and the live bindings outside it. -/
def recordsAcceptable (s : State) (p : PageNo) (records : List Byte) : Bool :=
  match recordsOf records with
  | none => false
  | some rs =>
    distinctBindings (bindingsOf rs) && !(bindingsOf rs).any fun b => (otherBindings s p).contains b

/-! ### The store commands -/

/-- R153: WRITE STORE PAGE. -/
def writeStorePage (page : Byte) (records : Vector Byte 32) (s : State) : State :=
  match pageOf page with
  | none => setResult .venue .range s
  | some p =>
    if s.storeOp.isSome then setResult .venue .busy s
    else if pageLocked (tget s.pages p) then setResult .venue .rights s
    else if !recordsAcceptable s p records.toList then setResult .venue .range s
    else setResult .venue .ok { s with storeOp := some (.write p records) }

/-- R156: LOCK STORE PAGE. -/
def lockStorePage (page : Byte) (s : State) : State :=
  match pageOf page with
  | none => setResult .venue .range s
  | some p =>
    if s.storeOp.isSome then setResult .venue .busy s
    else if pageLocked (tget s.pages p) then setResult .venue .rights s
    else if !pageValid (tget s.pages p) then setResult .venue .state s
    else setResult .venue .ok { s with storeOp := some (.lock p) }

/-- R157, 11.3: the READ STORE PAGE reply of a page. -/
def pageReply (pg : Page) : List Byte :=
  pg.octets.toList.take 32 ++ [octet (bit (pageLocked pg)), octet (bit (!pageValid pg))]

/-- R157: READ STORE PAGE at its page number; the reply is a copy. -/
def readStorePage (page : Byte) (s : State) : State :=
  match pageOf page with
  | none => setResult .venue .range s
  | some p =>
    if s.storeOp.isSome then setResult .venue .busy s
    else setCmd .venue (.reading (.reply (pageReply (tget s.pages p))) none 0) (setResult .venue .ok s)

/-! ### Completions -/

/-- R154: gives a zone the live copies of a record; the live limit is lowered to a lower ceiling. -/
def copyRecord (r : StoreRecord) (zr : ZoneRec) : ZoneRec :=
  { zr with cls := r.cls, ceiling := r.ceiling, binding := r.binding, live := min zr.live r.ceiling }

/-- R154: gives the zones of a page their new copies. -/
def copyRecords (p : PageNo) (rs : List StoreRecord) (s : State) : State :=
  ((zonesOfPage p).zip rs).foldl (fun s x => s.modZone x.1 (copyRecord x.2)) s

/-- R120: what a changed binding makes of a zone's remote: removal (with the outage rule where it was in service),
appearance, or both for a move. -/
def rebind (z : Zone) (s : State) : State :=
  let wasIn := inService s z
  let state' : RemoteState := if (s.zone z).binding.isSome then .searching else .unbound
  let s := s.modRemote z fun _ => { RemoteRec.unbound with state := state' }
  if wasIn then outage z s else s

/-- R120: the zones of a page whose binding differs from the one before. -/
def rebindPage (before : State) (p : PageNo) (s : State) : State :=
  (zonesOfPage p).foldl (fun s z => if (before.zone z).binding = (s.zone z).binding then s else rebind z s) s

/-- R154: the zone's ceiling, live limit, class or binding differs from before. -/
def copyChanged (before s : State) (z : Zone) : Bool :=
  let a := before.zone z
  let b := s.zone z
  a.ceiling != b.ceiling || a.live != b.live || a.cls != b.cls || a.binding != b.binding

/-- R154: what a completed page write changes in the live part. -/
def liveWrite (p : PageNo) (rs : List StoreRecord) (s : State) : State :=
  let s' := rebindPage s p (copyRecords p rs s)
  passes (copyChanged s s') s'

/-- R154, R158: the completion of a page write. During start-up only the store changes and STORE_DONE is gained
(log 10). -/
def writeCompletion (s : State) : State :=
  match s.storeOp with
  | some (.write p records) =>
    let s1 := { s with pages := tset s.pages p (sealPage (writtenOctets records)), storeOp := none }
    if s.starting then gainStoreDone s1
    else finish s (gainStoreDone (liveWrite p ((recordsOf records.toList).getD []) s1))
  | _ => s

/-- R156: the completion of a page lock. -/
def lockCompletion (s : State) : State :=
  match s.storeOp with
  | some (.lock p) =>
    gainStoreDone
      { s with pages := tmod s.pages p fun pg => sealPage (lockedOctets pg.octets), storeOp := none }
  | _ => s

/-! ### Interruption (R158) -/

/-- R158: the octets the operation was writing to a page. -/
def newOctets (op : StoreOp) (pg : Page) : Vector Byte 33 :=
  match op with
  | .write _ records => writtenOctets records
  | .lock _ => lockedOctets pg.octets

/-- The page of a store operation. -/
def opPage : StoreOp → PageNo
  | .write p _ => p
  | .lock p => p

/-- R158, log 9: the interrupted page at the `n`-th interruption: each octet old or new, and an integrity word that does
not match, as the free values have it. -/
def interruptedPage (n : Nat) (old new : Vector Byte 33) : Page :=
  let held := Vector.ofFn fun i => if Config.freeOctetIsNew n i.val then tget new i else tget old i
  ⟨held, matchingIntegrity held + BitVec.ofNat 16 (Config.freeIntegrityOffset n % 65535 + 1)⟩

/-- R158: a hardware reset stops a store operation in progress and leaves its page INVALID. -/
def interruptStore (s : State) : State :=
  match s.storeOp with
  | none => s
  | some op =>
    { s with
      pages := tmod s.pages (opPage op) fun pg => interruptedPage s.freeCount pg.octets (newOctets op pg)
      storeOp := none
      freeCount := s.freeCount + 1 }

end Sys2Proof.Machine
end

