-- ==== Sys2Proof/Machine/StartUp.lean ====
section
/-! DEFINITION. Resets and start-up (R149, R158 to R161, R177). -/

namespace Sys2Proof.Machine

/-! ### Resets -/

/-- R159, R173: what every reset does to a port at once: its command ends and its octet in assembly is dropped. What data
out has presented so far, as during the code of SOFT RESET (R162), stays on record (log 12). -/
def resetPort (q : PortRec) : PortRec := { q with cmd := .idle, assembly := [] }

/-- R159: a reset begins start-up: every command on the five ports ends, and the ramp, census and poll timers do not
run. -/
def beginStartUp (s : State) : State :=
  { s with
    starting := true
    ports := tmapIdx (fun _ q => resetPort q) s.ports
    rampTimer := ⟨false, s.rampTimer.due⟩
    censusTimer := ⟨false, s.censusTimer.due⟩
    pollTimer := ⟨false, s.pollTimer.due⟩ }

/-- R159: SOFT RESET at its code. The Fault Log, the venue's reader and a store operation in progress are kept. -/
def softReset (s : State) : State := beginStartUp s

/-- R149, R158: a hardware reset: a store operation is interrupted, the log is emptied, the seconds counter returns to 0,
the venue's cursor stands at "after newest", and start-up begins (log 27). -/
def hardwareReset (s : State) : State :=
  let s := interruptStore s
  evalLogAll (beginStartUp
    { s with log := [], seconds := 0, venueReader := ⟨0, 0⟩, tenantReaders := Vector.replicate 4 none })

/-! ### Loading the store (R160) -/

/-- R160: the records of a page that start-up loads: valid, in range, no two of its bindings equal, and none equal to one
loaded from a lower page. -/
def loadable (loaded : List Binding) (pg : Page) : Option (List StoreRecord) :=
  if pageValid pg then
    match recordsOf (pg.octets.toList.take 32) with
    | some rs =>
      if distinctBindings (bindingsOf rs) && !(bindingsOf rs).any fun b => loaded.contains b then some rs else none
    | none => none
  else none

/-- R160: what start-up loads from the pages, taken in order. -/
def loadPages (pages : Vector Page 6) : List PageNo → List Binding → List (PageNo × Option (List StoreRecord))
  | [], _ => []
  | p :: rest, loaded =>
    match loadable loaded (tget pages p) with
    | some rs => (p, some rs) :: loadPages pages rest (loaded ++ bindingsOf rs)
    | none => (p, none) :: loadPages pages rest loaded

/-- R9, R160, R161: the record of a zone of a loaded page at start-up. -/
def loadedZone (r : StoreRecord) : ZoneRec where
  cls := r.cls
  ceiling := r.ceiling
  binding := r.binding
  live := r.ceiling
  pinned := false
  effLimit := 0

/-- R160: the zone records that start-up leaves; the zones of a page treated as INVALID keep the defaults. -/
def loadZones (loads : List (PageNo × Option (List StoreRecord))) : Vector ZoneRec 48 :=
  loads.foldl
    (fun zs x => ((zonesOfPage x.1).zip (x.2.getD [])).foldl (fun zs y => tset zs y.1 (loadedZone y.2)) zs)
    (Vector.replicate 48 ZoneRec.ofInvalidPage)

/-- R160: the pages treated as INVALID, ascending. -/
def invalidPages (loads : List (PageNo × Option (List StoreRecord))) : List PageNo :=
  loads.filterMap fun x => if x.2.isNone then some x.1 else none

/-! ### The rest of the part (R161) -/

/-- R177: a port at the end of start-up; its select line is the controller's. It takes no octet until select has fallen
(again). -/
def startedPort (q : PortRec) : PortRec := { PortRec.atStartUp with selectLow := q.selectLow }

/-- R117: a Link Controller at the end of start-up; the CHAIN_MUTE of a LOCKED port is sent at once (R110). -/
def startedLink (l : LinkRec) : LinkRec :=
  { LinkRec.huntingAtStartUp with
    lockCond := l.lockCond
    locked := l.lockCond
    sending := if l.lockCond then .queued else .nothing }

/-- R140: a remote record at the end of start-up. -/
def startedRemote (z : ZoneRec) : RemoteRec :=
  { RemoteRec.unbound with state := if z.binding.isSome then .searching else .unbound }

/-- R161: the part at the end of start-up, before the log entries: everything at its start-up value but the lines and
lock conditions from outside, the store, and what the reset kept of the Fault Log. -/
def startedPart (s : State) : State :=
  let zones := loadZones (loadPages s.pages allPages [])
  { State.reset with
    ports := tmapIdx (fun _ q => startedPort q) s.ports
    carrierLock := s.carrierLock
    zones := zones
    links := tmapIdx (fun _ l => startedLink l) s.links
    remotes := tmapIdx (fun _ z => startedRemote z) zones
    log := s.log
    seconds := s.seconds
    venueReader := s.venueReader
    pages := s.pages
    freeCount := s.freeCount
    pending := s.pending }

/-- R159 to R161: the end of start-up. It waits for a store operation that a soft reset let run, and without a reset
before it there is no start-up to end (log 8). -/
def startUp (s : State) : State :=
  if !s.starting || s.storeOp.isSome then s
  else
    let bad := invalidPages (loadPages s.pages allPages [])
    evalLog .venue (bad.foldl (fun s p => appendLog (Entry.pageInvalid s.seconds p) s) (startedPart s))

/-- R141: the one-second timer expiry; it runs through start-up. -/
def secondExpiry (s : State) : State := { s with seconds := s.seconds + 1 }

end Sys2Proof.Machine
end

