-- ==== Sys2Proof/Machine/Tenants.lean ====
section
/-! DEFINITION. The Tenant Registry and Carrier Intake (chapter 1, R1 to R8): what each lifecycle command, SET LEVEL and
each carrier lock event does when it is complete. -/

namespace Sys2Proof.Machine

/-! ### Admission and quota -/

/-- R2, R3: the sum of the shares of the admitted tenants that `sel` selects. -/
def quotaSum (sel : Tenant → Bool) (s : State) : Nat :=
  sumTenants fun u => if admitted s u && sel u then (s.tenant u).quota else 0

/-- R2: the record of a tenant just admitted; its presence entries take the present lock conditions. -/
def admittedRecord (quota count : Nat) (lock : Vector Bool 6) : TenantRec :=
  { TenantRec.vacant with
    state := .active
    quota := quota
    sectorCount := count
    presence := tmapIdx (fun k l => decide (k.val < count) && l) lock }

/-- R2, R6: a cell set DARK/DARK with no alternates and hold-off 0, its recorded source TENANT (R43). The occupancy
stays. -/
def darkCell (c : Cell) : Cell :=
  { c with home := .dark, target := .dark, source := .tenant, alternates := [], holdOff := 0 }

/-- R2, R145: the effect of an accepted ADMIT TENANT on the records, before its passes. -/
def admitRecord (t : Tenant) (quota count : Nat) (s : State) : State :=
  let s := s.modTenant t fun _ => admittedRecord quota count (tget s.carrierLock t)
  let s := s.modColumn t darkCell
  evalLog (.tenant t) (s.setReader (.tenant t) ⟨s.log.length, 0⟩)

/-- R2: ADMIT TENANT. -/
def admitTenant (t quota count : Byte) (s : State) : State :=
  match tenantOf t with
  | none => setResult .venue .range s
  | some t =>
    if admitted s t then setResult .venue .state s
    else if count.toNat < 1 ∨ 6 < count.toNat then setResult .venue .range s
    else if 32 < quota.toNat ∨ 32 < quota.toNat + quotaSum (fun _ => true) s then setResult .venue .range s
    else setResult .venue .ok (passAll (admitRecord t quota.toNat count.toNat s))

/-- R3: SET QUOTA. -/
def setQuota (t share : Byte) (s : State) : State :=
  match tenantOf t with
  | none => setResult .venue .range s
  | some t =>
    if !admitted s t then setResult .venue .state s
    else if 32 < share.toNat ∨ 32 < share.toNat + quotaSum (fun u => u != t) s then setResult .venue .range s
    else
      let s' := s.modTenant t fun r => { r with quota := share.toNat }
      setResult .venue .ok (if (s.tenant t).quota = share.toNat then s' else passAll s')

/-! ### Suspension, resumption and retirement -/

/-- R4, R6, R64: every move of a tenant leaves the queue; no home changes. -/
def dropTenantMoves (t : Tenant) (s : State) : State :=
  { s with moves := s.moves.filter fun m => !(m.tenant == t) }

/-- R4: the records after a suspension, before its passes. -/
def suspendRecord (t : Tenant) (s : State) : State :=
  let s := dropTenantMoves t s
  let s := s.modColumn t fun c => { c with target := c.home }
  s.modTenant t fun r => { r with state := .suspended }

/-- R4: SUSPEND TENANT. -/
def suspendTenant (t : Byte) (s : State) : State :=
  match tenantOf t with
  | none => setResult .venue .range s
  | some t =>
    if !isActive s t then setResult .venue .state s
    else finish s (setResult .venue .ok (endFromOutside (.tenant t) (passAll (suspendRecord t s))))

/-- R5: RESUME TENANT. -/
def resumeTenant (t : Byte) (s : State) : State :=
  match tenantOf t with
  | none => setResult .venue .range s
  | some t =>
    if (s.tenant t).state ≠ .suspended then setResult .venue .state s
    else setResult .venue .ok (passAll (s.modTenant t fun r => { r with state := .active }))

/-- R6: the port of a retired tenant: its window, and its reasons LOG and MOVES_IDLE. -/
def retirePort (t : Tenant) (s : State) : State :=
  (endFromOutside (.tenant t) s).modPort (.tenant t) fun q =>
    { q with first := 0, last := 47, pointer := 0, log := false, movesIdle := false }

/-- R6: the records after a retirement, before its passes. -/
def retireRecord (t : Tenant) (s : State) : State :=
  let s := dropTenantMoves t s
  let s := s.modColumn t darkCell
  let s := s.modTenant t fun _ => TenantRec.vacant
  { s with tenantReaders := tset s.tenantReaders t none }

/-- R6: RETIRE TENANT. -/
def retireTenant (t : Byte) (s : State) : State :=
  match tenantOf t with
  | none => setResult .venue .range s
  | some t =>
    if !admitted s t then setResult .venue .state s
    else finish s (setResult .venue .ok (retirePort t (passAll (retireRecord t s))))

/-! ### Levels and presence -/

/-- R7: the stored value of a level. -/
def clampLevel (v : Nat) : Nat := min v 4095

/-- R7: stores a level, with the passes of a change. -/
def storeLevel (t : Tenant) (k : Sector) (v : Nat) (s : State) : State :=
  let s' := s.modTenant t fun r => { r with levels := tset r.levels k v }
  if tget (s.tenant t).levels k = v then s' else passes (usesSector s' t k) s'

/-- R7: SET LEVEL on the port of tenant `t`. -/
def setLevel (t : Tenant) (sec hi lo : Byte) (s : State) : State :=
  match sectorOf (s.tenant t).sectorCount sec with
  | none => setResult (.tenant t) .range s
  | some k =>
    setResult (.tenant t) (clampResult (decide (4095 < be16 hi lo))) (storeLevel t k (clampLevel (be16 hi lo)) s)

/-- R8: changes a presence entry, logs the change and runs its passes. -/
def setPresence (t : Tenant) (k : Sector) (present : Bool) (s : State) : State :=
  let s := s.modTenant t fun r => { r with presence := tset r.presence k present }
  let s := logCarrier (if present then .carrierBack else .carrierLost) t k s
  passes (usesSector s t k) s

/-- R8: a lock event of a Carrier Intake link. The lock condition is taken at all times; the presence entry only of an
admitted tenant's sector below its count, only when it differs, and not during start-up (R159). -/
def carrierEvent (t : Tenant) (k : Sector) (lock : Bool) (s : State) : State :=
  let s := { s with carrierLock := tmod s.carrierLock t fun row => tset row k lock }
  if !s.starting && admitted s t && decide (k.val < (s.tenant t).sectorCount) &&
      (tget (s.tenant t).presence k != lock) then
    setPresence t k lock s
  else s

end Sys2Proof.Machine
end

