-- ==== Sys2Proof/Machine/Ports.lean ====
section
/-! DEFINITION. The control ports (chapter 10): taking bits and octets, command codes and rights, parameters, elements,
replies and the select line. -/

namespace Sys2Proof.Machine

/-! ### Rights (R165) -/

/-- R165: the refusal of a command at its code, if it is refused. -/
def refusalOf (s : State) (p : Port) (c : Command) : Option Result :=
  match p with
  | .venue => if commandKind c = .tenant then some .rights else none
  | .tenant t =>
    match commandKind c with
    | .venue => some .rights
    | .tenant => if isActive s t then none else some .state
    | .shared =>
      match c with
      | .readStatus => none
      | .readFault => if admitted s t then none else some .state
      | _ => if isActive s t then none else some .state

/-! ### Command codes (R164) -/

/-- R176: READ STATUS at its code: the reply is taken, then MOVES_IDLE and STORE_DONE leave. -/
def takeStatus (p : Port) (s : State) : State :=
  setCmd p (.reading (.reply (statusReply p s)) none 0) (clearOnStatus p s)

/-- R146: READ FAULT at its code. -/
def takeFault (p : Port) (s : State) : State :=
  match s.reader p with
  | none => s
  | some r =>
    let x := readLog p r s
    setCmd p (.reading (.reply x.1) none 0) x.2

/-- R164: an accepted streamed write or read over the window: the pointer is placed at the first zone. -/
def beginWindowed (p : Port) (prog : Progress) (s : State) : State := setCmd p prog (placePointer p s)

/-- R164, R170: the code of READ PLAN or READ GRANTS: on port V the tenant number comes first. -/
def beginColumnRead (p : Port) (c : Command) (read : Tenant → ReadFrom) (s : State) : State :=
  match p with
  | .venue => beginWindowed p (.leading c) s
  | .tenant t => beginWindowed p (.reading (read t) none 0) s

/-- R97: the code of READ LOADS. -/
def beginLoads (p : Port) (s : State) : State :=
  match p with
  | .tenant t => setCmd p (.reading (.loads t 0) none 0) s
  | .venue => s

/-- R164: an accepted code other than READ STATUS proceeds by the command's shape. -/
def acceptCode (p : Port) (c : Command) (s : State) : State :=
  let ok := setCodeResult p (commandCode c) .ok s
  match c with
  | .readStatus => takeStatus p s
  | .readFault => takeFault p ok
  | .softReset => softReset ok
  | .writeTargets => beginWindowed p (.streaming .targets []) ok
  | .writeAlternates => beginWindowed p (.streaming .alternates []) ok
  | .writeScene => beginWindowed p (.leading .writeScene) ok
  | .writeLimits => beginWindowed p (.streaming .limits []) ok
  | .writeWeights => setCmd p (.streaming (.weights 0) []) ok
  | .readPlan => beginColumnRead p .readPlan .plan ok
  | .readGrants => beginColumnRead p .readGrants .grants ok
  | .readZones => beginWindowed p (.reading .zones none 0) ok
  | .readLoads => beginLoads p ok
  | .readWeights => setCmd p (.reading (.weights 0) none 0) ok
  | _ => setCmd p (.collecting c []) (setCodeResult p (commandCode c) .incomplete s)

/-- R164: a command-code octet completes: the command in progress ends, and the code is refused or accepted. -/
def takeCode (p : Port) (b : Byte) (s : State) : State :=
  let s := setCmd p .idle s
  match commandOf b with
  | none => setCodeResult p b .unknown s
  | some c =>
    match refusalOf s p c with
    | some r => setCodeResult p b r s
    | none => acceptCode p c s

/-! ### Fixed commands (R166) -/

/-- R168: SET WINDOW. -/
def setWindow (p : Port) (first last : Byte) (s : State) : State :=
  match zoneOf first, zoneOf last with
  | some a, some b =>
    if b < a then setResult p .range s
    else setResult p .ok (s.modPort p fun q => { q with first := a, last := b, pointer := a })
  | _, _ => setResult p .range s

/-- The parameters of a command of one octet. -/
def with1 (os : List Byte) (f : Byte → State → State) (s : State) : State :=
  match os with
  | [a] => f a s
  | _ => s

/-- The parameters of a command of two octets. -/
def with2 (os : List Byte) (f : Byte → Byte → State → State) (s : State) : State :=
  match os with
  | [a, b] => f a b s
  | _ => s

/-- The parameters of a command of three octets. -/
def with3 (os : List Byte) (f : Byte → Byte → Byte → State → State) (s : State) : State :=
  match os with
  | [a, b, c] => f a b c s
  | _ => s

/-- The parameters of SET SUPERVISION. -/
def with4 (os : List Byte) (f : Byte → Byte → Byte → Byte → State → State) (s : State) : State :=
  match os with
  | [a, b, c, d] => f a b c d s
  | _ => s

/-- The parameters of SET SPREADING. -/
def with8 (os : List Byte) (f : Byte → Byte → Byte → Byte → Byte → Byte → Byte → Byte → State → State) (s : State) :
    State :=
  match os with
  | [a, b, c, d, e, g, h, i] => f a b c d e g h i s
  | _ => s

/-- The page number and the 32 record octets of WRITE STORE PAGE (11.3). -/
def withPage (os : List Byte) (f : Byte → Vector Byte 32 → State → State) (s : State) : State :=
  match os with
  | page :: records => f page (Vector.ofFn fun i => records.getD i.val 0) s
  | [] => s

/-- R166: the whole parameter set of a tenant command goes to its block. -/
def completeTenant (t : Tenant) (c : Command) (os : List Byte) (s : State) : State :=
  match c with
  | .setWindow => with2 os (setWindow (.tenant t)) s
  | .requestMove => with2 os (requestMove t) s
  | .cancelMove => with1 os (cancelMove t) s
  | .setLevel => with3 os (setLevel t) s
  | .storeScene => with1 os (storeScene t) s
  | .recallScene => with1 os (recallScene t) s
  | .clearScene => with1 os (clearScene t) s
  | .setSpreading => with8 os (setSpreading t) s
  | _ => s

/-- R166: the whole parameter set of a venue command goes to its block. -/
def completeVenue (c : Command) (os : List Byte) (s : State) : State :=
  match c with
  | .setWindow => with2 os (setWindow .venue) s
  | .admitTenant => with3 os admitTenant s
  | .suspendTenant => with1 os suspendTenant s
  | .resumeTenant => with1 os resumeTenant s
  | .retireTenant => with1 os retireTenant s
  | .setQuota => with2 os setQuota s
  | .setLimit => with3 os setLimit s
  | .pinZone => with1 os pinZone s
  | .unpinZone => with1 os unpinZone s
  | .setVenueMode => with1 os setVenueMode s
  | .setStandbyClasses => with1 os setStandbyClasses s
  | .setWake => with3 os setWake s
  | .setDerate => with2 os setDerate s
  | .setEscalation => with2 os setEscalation s
  | .setSupervision => with4 os setSupervision s
  | .setRamp => with2 os setRamp s
  | .setCensus => with1 os setCensus s
  | .isolateRemote => with1 os isolateRemote s
  | .restoreRemote => with1 os restoreRemote s
  | .writeStorePage => withPage os writeStorePage s
  | .lockStorePage => with1 os lockStorePage s
  | .readStorePage => with1 os readStorePage s
  | _ => s

/-- R166: the last parameter of a fixed command is complete: the port becomes IDLE and the command takes effect. -/
def complete (p : Port) (c : Command) (os : List Byte) (s : State) : State :=
  match p with
  | .tenant t => completeTenant t c os (setCmd p .idle s)
  | .venue => completeVenue c os (setCmd p .idle s)

/-! ### Streamed commands (R169, R170) -/

/-- R169: the element size of a streamed write. -/
def writeSize : WriteTo → Nat
  | .targets => 1
  | .alternates => 3
  | .scene _ => 1
  | .limits => 2
  | .weights _ => 1

/-- R169: a complete element goes to its block; the weight table index moves on. -/
def applyElement (p : Port) (w : WriteTo) (os : List Byte) (s : State) : State :=
  match p, w with
  | .tenant t, .targets => with1 os (targetElement t) s
  | .tenant t, .alternates => alternatesElement t os s
  | .tenant t, .scene slot => with1 os (sceneElement t slot) s
  | .venue, .limits => with2 os limitElement s
  | .venue, .weights i => with1 os (weightElement i) (setCmd .venue (.streaming (.weights (i + 1)) []) s)
  | _, _ => s

/-- R70, R170: a leading parameter is complete: it is refused with RANGE, and the port is IDLE, or the command goes on. -/
def takeLeading (p : Port) (c : Command) (b : Byte) (s : State) : State :=
  let refused := setResult p .range (setCmd p .idle s)
  match c with
  | .writeScene =>
    match slotOf b with
    | some k => setCmd p (.streaming (.scene k) []) s
    | none => refused
  | .readPlan =>
    match tenantOf b with
    | some t => setCmd p (.reading (.plan t) none 0) s
    | none => refused
  | .readGrants =>
    match tenantOf b with
    | some t => setCmd p (.reading (.grants t) none 0) s
    | none => refused
  | _ => s

/-- R167, R170: a reply octet has been clocked out. After an element the pointer or the index moves on; after the last
octet of a fixed-length reply nothing further is counted. -/
def countOctet (p : Port) (r : ReadFrom) (held : Option (List Byte)) (pos : Nat) (s : State) : State :=
  match r with
  | .reply os => setCmd p (.reading r held (min (pos + 1) os.length)) s
  | _ =>
    if pos + 1 < readSize r then setCmd p (.reading r held (pos + 1)) s
    else
      let s' := setCmd p (.reading (nextRead s r) none 0) s
      if windowedRead r then advancePointer p s' else s'

/-! ### Octets (R162, R163) -/

/-- R163: a parameter octet completes. -/
def takeParam (p : Port) (b : Byte) (s : State) : State :=
  match (s.port p).cmd with
  | .idle => s
  | .collecting c os =>
    let os' := os ++ [b]
    if os'.length = paramCount (p == .venue) c then complete p c os' s else setCmd p (.collecting c os') s
  | .leading c => takeLeading p c b s
  | .streaming w part =>
    let part' := part ++ [b]
    if part'.length = writeSize w then applyElement p w part' (setCmd p (.streaming w []) s)
    else setCmd p (.streaming w part') s
  | .reading r held pos => countOctet p r held pos s

/-- R170: at the start of an element's first octet its values are taken and held. -/
def beginOctet (p : Port) (s : State) : State :=
  match (s.port p).cmd with
  | .reading r none pos => setCmd p (.reading r (some (readElement p s r)) pos) s
  | _ => s

/-- R162, R167: the octet that data out presents: the reply octet due, else 00h. -/
def dueOctet (p : Port) (s : State) : Byte :=
  match (s.port p).cmd with
  | .reading _ (some os) pos => os.getD pos 0
  | _ => 0

/-- The model's own record of what data out presented (log 12). -/
def present (p : Port) (b : Byte) (s : State) : State := s.modPort p fun q => { q with dataOut := q.dataOut ++ [b] }

/-- R162, R177: an octet completes on a port; during start-up it is discarded. The octet that data out presented is taken
at the completion: where a read has been ended from outside after the octet's first bits (R173), it is recorded as 00h
whole (DESIGN CHOICE, log 34). -/
def takeOctet (p : Port) (s : State) (o : Bool × Byte) : State :=
  if s.starting then present p 0 s
  else
    let s := beginOctet p s
    let s := present p (dueOctet p s) s
    if o.1 then takeParam p o.2 s else takeCode p o.2 s

/-- The record of data out begins anew with each command of the queue (log 12). -/
def clearOut (p : Port) (s : State) : State := s.modPort p fun q => { q with dataOut := [] }

/-- R162: the bits left over begin the next octet. -/
def beginNext (p : Port) (left : List LineBit) (s : State) : State :=
  if s.starting || left.isEmpty then s else beginOctet p (s.modPort p fun q => { q with assembly := left })

/-- R162: bits clocked into a port that takes octets: the octets they complete are taken one after another, and the bits
left over begin the next. -/
def takeBits (p : Port) (bits : List LineBit) (s : State) : State :=
  let cut := cutOctets (s.port p).assembly bits
  let s := s.modPort p fun q => { q with assembly := [], dataOut := [] }
  beginNext p cut.2 (cut.1.foldl (takeOctet p) s)

/-- R162, R171, R177: bits clocked into a port. While select is high they are not sampled and data out is not driven.
During start-up, and until select has risen and fallen after it, they are discarded and data out reads 00h (log 11). -/
def clockBits (p : Port) (bits : List LineBit) (s : State) : State :=
  if !(s.port p).selectLow then clearOut p s
  else if s.starting || !(s.port p).armed then
    s.modPort p fun q => { q with dataOut := List.replicate (bits.length / 8) 0 }
  else takeBits p bits s

/-- A command row at a port: its code octet where the burst has it, and the octets that follow (log 1). -/
def clockBurst (c : Command) (p : Port) (b : Burst) (s : State) : State :=
  match b with
  | .code rest => clockBits p (octetBits false (commandCode c) ++ clockedBits rest) s
  | .more rest => clockBits p (clockedBits rest) s

/-- An element row at a port: octets with the line high. -/
def clockElement (p : Port) (c : Clocked) (s : State) : State := clockBits p (clockedBits c) s

/-- A code octet that names no command, and the octets that follow. -/
def clockCode (p : Port) (code : Byte) (c : Clocked) (s : State) : State :=
  clockBits p (octetBits false code ++ clockedBits c) s

/-! ### The select line (R171, R172, R177) -/

/-- R171, R172: select rises; the bits of an octet not yet complete are discarded. -/
def raiseSelect (p : Port) (s : State) : State :=
  s.modPort p fun q => { q with selectLow := false, assembly := [], dataOut := [] }

/-- R171, R177: select falls, which also arms the port after start-up; a select already low is left as it is. -/
def lowerSelect (p : Port) (s : State) : State :=
  s.modPort p fun q => if q.selectLow then q else { q with selectLow := true, armed := true, dataOut := [] }

end Sys2Proof.Machine
end

