-- ==== Sys2Proof/Machine/Events.lean ====
section
/-! DEFINITION. The events that no controller clocks in: resets, select lines, timers, fronthaul and carrier events. -/

namespace Sys2Proof.Machine

/-- HARDWARE_RESET (R158). Reset pin or power-up: stops any store operation and leaves its page INVALID, empties the
log, sets the seconds counter to 0, and begins start-up. -/
def execHardwareReset (s : State) : Host.Outcome State Fault Refusal := .next (hardwareReset s)

/-- START_UP (R161). Loads the Limit Store and sets every record of the part to its start-up value, then restarts the
ramp, census and poll timers. -/
def execStartUp (s : State) : Host.Outcome State Fault Refusal := .next (startUp s)

/-- SELECT_RISE (R171). Select rises: the port pauses, keeping its command state and discarding the bits of any
partial octet. -/
def execSelectRise (p : Port) (s : State) : Host.Outcome State Fault Refusal := .next (raiseSelect p s)

/-- RAMP_TIMER_EXPIRY (R55). Advances every RAMPING move by the ramp step, completes the moves that reach their end,
then grants slots and admits pending cells. -/
def execRampTimerExpiry (s : State) : Host.Outcome State Fault Refusal := .next (rampExpiry s)

/-- CENSUS_TIMER_EXPIRY (R82). Measures sector loads, advances overload states, makes proposals, counts down
hold-offs, and evaluates waking. -/
def execCensusTimerExpiry (s : State) : Host.Outcome State Fault Refusal := .next (censusExpiry s)

/-- POLL_TIMER_EXPIRY (R105). Each Link Controller with bound positions and no round in progress starts a poll round.
-/
def execPollTimerExpiry (s : State) : Host.Outcome State Fault Refusal := .next (pollExpiry s)

/-- POLL_SENT (R107). The last octet of a POLL is sent, the reply window opens, and the 4 ms reply timer starts. -/
def execPollSent (f : FPort) (s : State) : Host.Outcome State Fault Refusal := .next (pollEnd f s)

/-- FRAME_RECEIVED (R104). A received control frame is complete and is checked; a GOOD STATUS from the polled position
closes the window as a reply. -/
def execFrameReceived (f : FPort) (chars : List LineChar) (s : State) : Host.Outcome State Fault Refusal := .next (takeChars f chars s)

/-- REPLY_TIMER_EXPIRY (R107). The reply window closes as a miss. -/
def execReplyTimerExpiry (f : FPort) (s : State) : Host.Outcome State Fault Refusal := .next (replyExpiry f s)

/-- FRAME_TRANSMITTED (R111). The last octet of a queued SET or CHAIN_MUTE is sent, and the frame leaves the transmit
queue. -/
def execFrameTransmitted (f : FPort) (s : State) : Host.Outcome State Fault Refusal := .next (frameEnd f s)

/-- LOSS_OF_LOCK (R100). A fronthaul port becomes HUNTING: the frame being received is abandoned, and a frame or POLL
being sent is abandoned. -/
def execLossOfLock (f : FPort) (s : State) : Host.Outcome State Fault Refusal := .next (lockLost f s)

/-- RETURN_OF_LOCK (R100). A fronthaul port becomes LOCKED, its receiver starts SEEKING, and transmission resumes. -/
def execReturnOfLock (f : FPort) (s : State) : Host.Outcome State Fault Refusal := .next (lockBack f s)

/-- CARRIER_LOST (R8). A Carrier Intake loss of lock makes a PRESENT sector ABSENT, logs CARRIER_LOST and runs passes.
-/
def execCarrierLost (t : Tenant) (sec : Sector) (s : State) : Host.Outcome State Fault Refusal := .next (carrierEvent t sec false s)

/-- CARRIER_BACK (R8). A Carrier Intake return of lock makes an ABSENT sector PRESENT, logs CARRIER_BACK and runs
passes. -/
def execCarrierBack (t : Tenant) (sec : Sector) (s : State) : Host.Outcome State Fault Refusal := .next (carrierEvent t sec true s)

/-- STORE_WRITE_COMPLETION (R154). At store timer expiry the page takes its new records and the zones take the new
ceilings, classes and bindings, with passes and STORE_DONE. -/
def execStoreWriteCompletion (s : State) : Host.Outcome State Fault Refusal := .next (writeCompletion s)

/-- STORE_LOCK_COMPLETION (R156). At store timer expiry the page becomes LOCKED with a rewritten integrity word, and
port V gains STORE_DONE. -/
def execStoreLockCompletion (s : State) : Host.Outcome State Fault Refusal := .next (lockCompletion s)

/-- ONE_SECOND_TIMER_EXPIRY (R141). The seconds counter rises by 1, wrapping to 0. -/
def execOneSecondTimerExpiry (s : State) : Host.Outcome State Fault Refusal := .next (secondExpiry s)

/-- SELECT_FALL (R171). Select falls on a control port, ending a pause so that the next octet continues the command in
progress, or after start-up arming the port to take whole octets again. -/
def execSelectFall (p : Port) (s : State) : Host.Outcome State Fault Refusal := .next (lowerSelect p s)

/-- START_PATTERN (R103). A framing C3h followed at once by a framing 5Ah arrives on a LOCKED fronthaul port, taking
the receiver from SEEKING to COLLECTING, or ending the frame being collected as TRUNCATED and beginning the new one.
-/
def execStartPattern (f : FPort) (s : State) : Host.Outcome State Fault Refusal := .next (takeChars f startPattern s)

/-- BAD_LENGTH (R103). The length octet of a frame being collected is below 5 or above 64, so the frame ends with
outcome BAD_LENGTH and the receiver returns to SEEKING. -/
def execBadLength (f : FPort) (length : Byte) (s : State) : Host.Outcome State Fault Refusal := .next (takeChars f [.data length] s)

end Sys2Proof.Machine
end

