-- ==== Sys2Proof/Machine/SharedCommands.lean ====
section
/-! DEFINITION. The shared commands, which every port admits (R165), and a code that names no command. -/

namespace Sys2Proof.Machine

/-- SET_WINDOW (R168). Sets the port's window to a first and last zone and places the pointer at the first zone. -/
def execSetWindow (p : Port) (b : Burst) (s : State) : Host.Outcome State Fault Refusal := .next (clockBurst .setWindow p b s)

/-- READ_PLAN (R22). Starts a streamed read of a tenant's plan column over the window. -/
def execReadPlan (p : Port) (b : Burst) (s : State) : Host.Outcome State Fault Refusal := .next (clockBurst .readPlan p b s)

/-- READ_PLAN_ELEMENT (R22). Takes a snapshot of one cell's plan values at the start of the element's first octet and
clocks it out. -/
def execReadPlanElement (p : Port) (c : Clocked) (s : State) : Host.Outcome State Fault Refusal := .next (clockElement p c s)

/-- READ_GRANTS (R40). Starts a streamed read of a tenant's requests, grants and gains over the window. -/
def execReadGrants (p : Port) (b : Burst) (s : State) : Host.Outcome State Fault Refusal := .next (clockBurst .readGrants p b s)

/-- READ_GRANTS_ELEMENT (R40). Takes a snapshot of one zone's request, grant and gain for the tenant and clocks it
out. -/
def execReadGrantsElement (p : Port) (c : Clocked) (s : State) : Host.Outcome State Fault Refusal := .next (clockElement p c s)

/-- READ_FAULT (R146). Selects the reader's next visible unread log entry, or NONE, moves the cursor, and returns the
entry with the lost count, which is then set to 0. -/
def execReadFault (p : Port) (b : Burst) (s : State) : Host.Outcome State Fault Refusal := .next (clockBurst .readFault p b s)

/-- READ_STATUS (R176). Returns the last command code, the result, the attention reasons and the tenant state, and
clears MOVES_IDLE and STORE_DONE. -/
def execReadStatus (p : Port) (b : Burst) (s : State) : Host.Outcome State Fault Refusal := .next (clockBurst .readStatus p b s)

/-- UNKNOWN_COMMAND (R164). A code that names no command is refused with UNKNOWN and leaves the port IDLE. -/
def execUnknownCommand (p : Port) (code : Byte) (c : Clocked) (s : State) : Host.Outcome State Fault Refusal := .next (clockCode p code c s)

end Sys2Proof.Machine
end

