-- ==== Sys2Proof/Machine/TenantCommands.lean ====
section
/-! DEFINITION. The tenant commands: the meaning of each row that a tenant controller clocks into its port (R165). The row's octets
go to the port one after another (Ports.lean), and what each octet does is the rule of its command. -/

namespace Sys2Proof.Machine

/-- WRITE_TARGETS (R17). Command code that starts a streamed target write on a tenant port, with the pointer at the
window's first zone and result OK. -/
def execWriteTargets (p : Port) (b : Burst) (s : State) : Host.Outcome State Fault Refusal := .next (clockBurst .writeTargets p b s)

/-- WRITE_TARGETS_ELEMENT (R17). A completed one-octet element is skipped, or is applied through R15 as the new target
of the cell at the pointer; the pointer then advances. -/
def execWriteTargetsElement (p : Port) (c : Clocked) (s : State) : Host.Outcome State Fault Refusal := .next (clockElement p c s)

/-- WRITE_ALTERNATES (R19). Command code that starts a streamed alternates write on a tenant port. -/
def execWriteAlternates (p : Port) (b : Burst) (s : State) : Host.Outcome State Fault Refusal := .next (clockBurst .writeAlternates p b s)

/-- WRITE_ALTERNATES_ELEMENT (R19). A completed three-octet element replaces the alternates list of the cell at the
pointer, or is skipped as a whole; the pointer then advances. -/
def execWriteAlternatesElement (p : Port) (c : Clocked) (s : State) : Host.Outcome State Fault Refusal := .next (clockElement p c s)

/-- REQUEST_MOVE (R18). Sets one cell's target to a sector or DARK through R15, or is taken with SKIPPED at a pinned
zone. -/
def execRequestMove (p : Port) (b : Burst) (s : State) : Host.Outcome State Fault Refusal := .next (clockBurst .requestMove p b s)

/-- CANCEL_MOVE (R61). Sets one cell's target back to its home through R15, which removes a WAITING move or reverses a
RAMPING FORWARD move. -/
def execCancelMove (p : Port) (b : Burst) (s : State) : Host.Outcome State Fault Refusal := .next (clockBurst .cancelMove p b s)

/-- SET_LEVEL (R7). Stores a sector level, clamped to 4095, and runs passes at the zones that use the sector if the
level changed. -/
def execSetLevel (p : Port) (b : Burst) (s : State) : Host.Outcome State Fault Refusal := .next (clockBurst .setLevel p b s)

/-- STORE_SCENE (R68). Fills a scene slot with the tenant's 48 current targets. -/
def execStoreScene (p : Port) (b : Burst) (s : State) : Host.Outcome State Fault Refusal := .next (clockBurst .storeScene p b s)

/-- WRITE_SCENE (R69). Command code and slot number that start a streamed scene write; a slot number above 3 is
refused with RANGE. -/
def execWriteScene (p : Port) (b : Burst) (s : State) : Host.Outcome State Fault Refusal := .next (clockBurst .writeScene p b s)

/-- WRITE_SCENE_ELEMENT (R69). A completed element writes a sector, DARK or KEEP into the slot at the pointer's zone,
filling an EMPTY slot with KEEP first, or is skipped; the pointer then advances. -/
def execWriteSceneElement (p : Port) (c : Clocked) (s : State) : Host.Outcome State Fault Refusal := .next (clockElement p c s)

/-- RECALL_SCENE (R72). Applies a FILLED slot's entries as targets with source SCENE in ascending zone order, passing
over KEEP entries and pinned zones. -/
def execRecallScene (p : Port) (b : Burst) (s : State) : Host.Outcome State Fault Refusal := .next (clockBurst .recallScene p b s)

/-- CLEAR_SCENE (R71). Makes a scene slot EMPTY. -/
def execClearScene (p : Port) (b : Burst) (s : State) : Host.Outcome State Fault Refusal := .next (clockBurst .clearScene p b s)

/-- SET_SPREADING (R89). Replaces the tenant's spreading settings, clamping where needed, or is refused with RANGE for
bad water marks. -/
def execSetSpreading (p : Port) (b : Burst) (s : State) : Host.Outcome State Fault Refusal := .next (clockBurst .setSpreading p b s)

/-- READ_LOADS (R97). Starts a streamed read of the tenant's sector loads and overload states. -/
def execReadLoads (p : Port) (b : Burst) (s : State) : Host.Outcome State Fault Refusal := .next (clockBurst .readLoads p b s)

/-- READ_LOADS_ELEMENT (R97). Takes a snapshot of one sector's load, state, counts and last proposal and clocks it
out. -/
def execReadLoadsElement (p : Port) (c : Clocked) (s : State) : Host.Outcome State Fault Refusal := .next (clockElement p c s)

end Sys2Proof.Machine
end

