-- ==== Sys2Proof/Machine/VenueCommands.lean ====
section
/-! DEFINITION. The venue commands: the meaning of each row that the venue controller clocks into port V (R165). -/

namespace Sys2Proof.Machine

/-- ADMIT_TENANT (R2). Makes a VACANT tenant ACTIVE with its quota share and sector count, resets its cells, slots and
census state, creates its log reader, and runs passes at every zone. -/
def execAdmitTenant (p : Port) (b : Burst) (s : State) : Host.Outcome State Fault Refusal := .next (clockBurst .admitTenant p b s)

/-- SUSPEND_TENANT (R4). Removes or snaps back the tenant's moves, sets every target to its home, makes the tenant
SUSPENDED, ends the command on its port, and runs passes at every zone. -/
def execSuspendTenant (p : Port) (b : Burst) (s : State) : Host.Outcome State Fault Refusal := .next (clockBurst .suspendTenant p b s)

/-- RESUME_TENANT (R5). Makes a SUSPENDED tenant ACTIVE and runs passes at every zone. -/
def execResumeTenant (p : Port) (b : Burst) (s : State) : Host.Outcome State Fault Refusal := .next (clockBurst .resumeTenant p b s)

/-- RETIRE_TENANT (R6). Removes the tenant's moves, sets its cells to DARK/DARK, empties its slots, discards its
reader, resets its port, makes it VACANT, and runs passes at every zone. -/
def execRetireTenant (p : Port) (b : Burst) (s : State) : Host.Outcome State Fault Refusal := .next (clockBurst .retireTenant p b s)

/-- SET_QUOTA (R3). Replaces an admitted tenant's quota share if the quota sum stays at or below 32, and runs passes
at every zone if the share changed. -/
def execSetQuota (p : Port) (b : Burst) (s : State) : Host.Outcome State Fault Refusal := .next (clockBurst .setQuota p b s)

/-- SET_LIMIT (R10). Stores a zone's live limit, clamped to its ceiling, and runs a pass at the zone if the limit
changed. -/
def execSetLimit (p : Port) (b : Burst) (s : State) : Host.Outcome State Fault Refusal := .next (clockBurst .setLimit p b s)

/-- WRITE_LIMITS (R11). Command code that starts a streamed live-limit write on port V. -/
def execWriteLimits (p : Port) (b : Burst) (s : State) : Host.Outcome State Fault Refusal := .next (clockBurst .writeLimits p b s)

/-- WRITE_LIMITS_ELEMENT (R11). A completed two-octet element is stored, clamped to the ceiling, as the live limit of
the zone at the pointer, with a pass if the limit changed; the pointer then advances. -/
def execWriteLimitsElement (p : Port) (c : Clocked) (s : State) : Host.Outcome State Fault Refusal := .next (clockElement p c s)

/-- PIN_ZONE (R12). Pins a zone, removes its WAITING moves and sets every target to its home or to the destination of
its RAMPING move. -/
def execPinZone (p : Port) (b : Burst) (s : State) : Host.Outcome State Fault Refusal := .next (clockBurst .pinZone p b s)

/-- UNPIN_ZONE (R13). Clears a zone's pinned flag. -/
def execUnpinZone (p : Port) (b : Burst) (s : State) : Host.Outcome State Fault Refusal := .next (clockBurst .unpinZone p b s)

/-- SET_VENUE_MODE (R23). Sets the venue mode to EVENT or STANDBY, resets the wake count, and runs passes at the zones
whose dimmed flag changes. -/
def execSetVenueMode (p : Port) (b : Burst) (s : State) : Host.Outcome State Fault Refusal := .next (clockBurst .setVenueMode p b s)

/-- SET_STANDBY_CLASSES (R24). Replaces the standby-dark set and re-evaluates the dimmed flags, with passes at the
zones that change. -/
def execSetStandbyClasses (p : Port) (b : Burst) (s : State) : Host.Outcome State Fault Refusal := .next (clockBurst .setStandbyClasses p b s)

/-- SET_WAKE (R24). Sets the wake threshold and the wake debounce, clamped to 1 to 15, and resets the wake count. -/
def execSetWake (p : Port) (b : Burst) (s : State) : Host.Outcome State Fault Refusal := .next (clockBurst .setWake p b s)

/-- SET_DERATE (R126). Sets an alarm class's derate, clamped to 32, and runs passes at the zones where the class is
active if the derate changed. -/
def execSetDerate (p : Port) (b : Burst) (s : State) : Host.Outcome State Fault Refusal := .next (clockBurst .setDerate p b s)

/-- SET_ESCALATION (R128). Sets an alarm class's escalation setting. -/
def execSetEscalation (p : Port) (b : Burst) (s : State) : Host.Outcome State Fault Refusal := .next (clockBurst .setEscalation p b s)

/-- SET_SUPERVISION (R118). Sets the poll interval, the loss threshold, the recovery count and the alarm debounce,
each clamped to its range. -/
def execSetSupervision (p : Port) (b : Burst) (s : State) : Host.Outcome State Fault Refusal := .next (clockBurst .setSupervision p b s)

/-- SET_RAMP (R56). Sets the ramp tick and the ramp step, each clamped to its range. -/
def execSetRamp (p : Port) (b : Burst) (s : State) : Host.Outcome State Fault Refusal := .next (clockBurst .setRamp p b s)

/-- SET_CENSUS (R81). Sets the census interval, storing 0 as 1. -/
def execSetCensus (p : Port) (b : Burst) (s : State) : Host.Outcome State Fault Refusal := .next (clockBurst .setCensus p b s)

/-- WRITE_WEIGHTS (R79). Command code that starts a streamed write of the occupancy weight table from entry 0. -/
def execWriteWeights (p : Port) (b : Burst) (s : State) : Host.Outcome State Fault Refusal := .next (clockBurst .writeWeights p b s)

/-- WRITE_WEIGHTS_ELEMENT (R79). A completed element is stored in the next weight table entry, wrapping after entry
15. -/
def execWriteWeightsElement (p : Port) (c : Clocked) (s : State) : Host.Outcome State Fault Refusal := .next (clockElement p c s)

/-- READ_WEIGHTS (R80). Starts a streamed read of the occupancy weight table from entry 0. -/
def execReadWeights (p : Port) (b : Burst) (s : State) : Host.Outcome State Fault Refusal := .next (clockBurst .readWeights p b s)

/-- READ_WEIGHTS_ELEMENT (R80). Clocks out one weight table entry as it stands and advances to the next, wrapping
after entry 15. -/
def execReadWeightsElement (p : Port) (c : Clocked) (s : State) : Host.Outcome State Fault Refusal := .next (clockElement p c s)

/-- ISOLATE_REMOTE (R132). Puts a bound remote that is not ISOLATED into ISOLATED with cause VENUE. -/
def execIsolateRemote (p : Port) (b : Burst) (s : State) : Host.Outcome State Fault Refusal := .next (clockBurst .isolateRemote p b s)

/-- RESTORE_REMOTE (R133). Returns an ISOLATED remote to SEARCHING and clears its counts and flags. -/
def execRestoreRemote (p : Port) (b : Burst) (s : State) : Host.Outcome State Fault Refusal := .next (clockBurst .restoreRemote p b s)

/-- READ_ZONES (R41). Starts a streamed read of the zone records over the window on port V. -/
def execReadZones (p : Port) (b : Burst) (s : State) : Host.Outcome State Fault Refusal := .next (clockBurst .readZones p b s)

/-- READ_ZONES_ELEMENT (R41). Takes a snapshot of one zone's limits, grants, flags and remote record and clocks it
out. -/
def execReadZonesElement (p : Port) (c : Clocked) (s : State) : Host.Outcome State Fault Refusal := .next (clockElement p c s)

/-- WRITE_STORE_PAGE (R153). Checks a page number and eight zone records and, if accepted, begins a 25 ms page write.
-/
def execWriteStorePage (p : Port) (b : Burst) (s : State) : Host.Outcome State Fault Refusal := .next (clockBurst .writeStorePage p b s)

/-- LOCK_STORE_PAGE (R156). Checks a page number and, if accepted, begins a 25 ms page lock. -/
def execLockStorePage (p : Port) (b : Burst) (s : State) : Host.Outcome State Fault Refusal := .next (clockBurst .lockStorePage p b s)

/-- READ_STORE_PAGE (R157). Copies a store page's records, lock state and validity into a fixed-length reply. -/
def execReadStorePage (p : Port) (b : Burst) (s : State) : Host.Outcome State Fault Refusal := .next (clockBurst .readStorePage p b s)

/-- SOFT_RESET (R159). Ends every command on the five ports and begins start-up, keeping the Fault Log and letting a
store operation in progress run to its completion. -/
def execSoftReset (p : Port) (b : Burst) (s : State) : Host.Outcome State Fault Refusal := .next (clockBurst .softReset p b s)

end Sys2Proof.Machine
end

