-- ==== Sys2Proof/Machine/Dispatch.lean ====
section
/-! DEFINITION. The meaning of each command: one arm per constructor of `Instr`, in the order of the table. -/

namespace Sys2Proof.Machine

def exec (i : Instr) (s : State) : Host.Outcome State Fault Refusal :=
  match i with
  | .setWindow p b => Sys2Proof.Machine.execSetWindow p b s
  | .writeTargets p b => Sys2Proof.Machine.execWriteTargets p b s
  | .writeTargetsElement p c => Sys2Proof.Machine.execWriteTargetsElement p c s
  | .writeAlternates p b => Sys2Proof.Machine.execWriteAlternates p b s
  | .writeAlternatesElement p c => Sys2Proof.Machine.execWriteAlternatesElement p c s
  | .requestMove p b => Sys2Proof.Machine.execRequestMove p b s
  | .cancelMove p b => Sys2Proof.Machine.execCancelMove p b s
  | .setLevel p b => Sys2Proof.Machine.execSetLevel p b s
  | .storeScene p b => Sys2Proof.Machine.execStoreScene p b s
  | .writeScene p b => Sys2Proof.Machine.execWriteScene p b s
  | .writeSceneElement p c => Sys2Proof.Machine.execWriteSceneElement p c s
  | .recallScene p b => Sys2Proof.Machine.execRecallScene p b s
  | .clearScene p b => Sys2Proof.Machine.execClearScene p b s
  | .setSpreading p b => Sys2Proof.Machine.execSetSpreading p b s
  | .readPlan p b => Sys2Proof.Machine.execReadPlan p b s
  | .readPlanElement p c => Sys2Proof.Machine.execReadPlanElement p c s
  | .readGrants p b => Sys2Proof.Machine.execReadGrants p b s
  | .readGrantsElement p c => Sys2Proof.Machine.execReadGrantsElement p c s
  | .readLoads p b => Sys2Proof.Machine.execReadLoads p b s
  | .readLoadsElement p c => Sys2Proof.Machine.execReadLoadsElement p c s
  | .readFault p b => Sys2Proof.Machine.execReadFault p b s
  | .readStatus p b => Sys2Proof.Machine.execReadStatus p b s
  | .unknownCommand p code c => Sys2Proof.Machine.execUnknownCommand p code c s
  | .admitTenant p b => Sys2Proof.Machine.execAdmitTenant p b s
  | .suspendTenant p b => Sys2Proof.Machine.execSuspendTenant p b s
  | .resumeTenant p b => Sys2Proof.Machine.execResumeTenant p b s
  | .retireTenant p b => Sys2Proof.Machine.execRetireTenant p b s
  | .setQuota p b => Sys2Proof.Machine.execSetQuota p b s
  | .setLimit p b => Sys2Proof.Machine.execSetLimit p b s
  | .writeLimits p b => Sys2Proof.Machine.execWriteLimits p b s
  | .writeLimitsElement p c => Sys2Proof.Machine.execWriteLimitsElement p c s
  | .pinZone p b => Sys2Proof.Machine.execPinZone p b s
  | .unpinZone p b => Sys2Proof.Machine.execUnpinZone p b s
  | .setVenueMode p b => Sys2Proof.Machine.execSetVenueMode p b s
  | .setStandbyClasses p b => Sys2Proof.Machine.execSetStandbyClasses p b s
  | .setWake p b => Sys2Proof.Machine.execSetWake p b s
  | .setDerate p b => Sys2Proof.Machine.execSetDerate p b s
  | .setEscalation p b => Sys2Proof.Machine.execSetEscalation p b s
  | .setSupervision p b => Sys2Proof.Machine.execSetSupervision p b s
  | .setRamp p b => Sys2Proof.Machine.execSetRamp p b s
  | .setCensus p b => Sys2Proof.Machine.execSetCensus p b s
  | .writeWeights p b => Sys2Proof.Machine.execWriteWeights p b s
  | .writeWeightsElement p c => Sys2Proof.Machine.execWriteWeightsElement p c s
  | .readWeights p b => Sys2Proof.Machine.execReadWeights p b s
  | .readWeightsElement p c => Sys2Proof.Machine.execReadWeightsElement p c s
  | .isolateRemote p b => Sys2Proof.Machine.execIsolateRemote p b s
  | .restoreRemote p b => Sys2Proof.Machine.execRestoreRemote p b s
  | .readZones p b => Sys2Proof.Machine.execReadZones p b s
  | .readZonesElement p c => Sys2Proof.Machine.execReadZonesElement p c s
  | .writeStorePage p b => Sys2Proof.Machine.execWriteStorePage p b s
  | .lockStorePage p b => Sys2Proof.Machine.execLockStorePage p b s
  | .readStorePage p b => Sys2Proof.Machine.execReadStorePage p b s
  | .softReset p b => Sys2Proof.Machine.execSoftReset p b s
  | .hardwareReset => Sys2Proof.Machine.execHardwareReset s
  | .startUp => Sys2Proof.Machine.execStartUp s
  | .selectRise p => Sys2Proof.Machine.execSelectRise p s
  | .rampTimerExpiry => Sys2Proof.Machine.execRampTimerExpiry s
  | .censusTimerExpiry => Sys2Proof.Machine.execCensusTimerExpiry s
  | .pollTimerExpiry => Sys2Proof.Machine.execPollTimerExpiry s
  | .pollSent f => Sys2Proof.Machine.execPollSent f s
  | .frameReceived f chars => Sys2Proof.Machine.execFrameReceived f chars s
  | .replyTimerExpiry f => Sys2Proof.Machine.execReplyTimerExpiry f s
  | .frameTransmitted f => Sys2Proof.Machine.execFrameTransmitted f s
  | .lossOfLock f => Sys2Proof.Machine.execLossOfLock f s
  | .returnOfLock f => Sys2Proof.Machine.execReturnOfLock f s
  | .carrierLost t sec => Sys2Proof.Machine.execCarrierLost t sec s
  | .carrierBack t sec => Sys2Proof.Machine.execCarrierBack t sec s
  | .storeWriteCompletion => Sys2Proof.Machine.execStoreWriteCompletion s
  | .storeLockCompletion => Sys2Proof.Machine.execStoreLockCompletion s
  | .oneSecondTimerExpiry => Sys2Proof.Machine.execOneSecondTimerExpiry s
  | .selectFall p => Sys2Proof.Machine.execSelectFall p s
  | .startPattern f => Sys2Proof.Machine.execStartPattern f s
  | .badLength f length => Sys2Proof.Machine.execBadLength f length s

end Sys2Proof.Machine
end

