-- ==== Sys2Proof/Machine/Combiner.lean ====
section
/-! DEFINITION. The Combiner (R37 to R39). It keeps no state (chapter 2): its composition is computed from the gains, the
homes, the moves and the weights (log 26). Between a reset and START_UP it follows the records held before the reset, on
which the spec is silent (DESIGN CHOICE, log 35). -/

namespace Sys2Proof.Machine

/-- One carrier of a composite downlink: the tenant's sector, its weight in 32nds, and the tenant's gain in 256ths. -/
structure Carrier where
  tenant : Tenant
  sector : Sector
  weight : Nat
  gain : Nat
deriving DecidableEq, Repr

/-- R37, R39: what a cell serves, in 32nds: the home alone, or the two ends of a RAMPING move. -/
def shares (s : State) (z : Zone) (t : Tenant) : List (Dest × Nat) :=
  match moveAt s z t with
  | some m => if m.state = .ramping then [(m.src, 32 - m.weight), (m.dst, m.weight)] else [((s.cell z t).home, 32)]
  | none => [((s.cell z t).home, 32)]

/-- R37: the carriers that one cell contributes: none for DARK, for an ABSENT sector, or at gain 0. -/
def carriers (s : State) (z : Zone) (t : Tenant) : List Carrier :=
  let g := (s.cell z t).gain
  if g = 0 then []
  else (shares s z t).filterMap fun x =>
    match x.1 with
    | .dark => none
    | .sector k => if tget (s.tenant t).presence k then some ⟨t, k, x.2, g⟩ else none

/-- R37: the composite downlink of a zone, and where it is sent; a zone with no binding has none. In start-up too
it follows the records (DESIGN CHOICE, log 35). -/
def composite (s : State) (z : Zone) : Option (Binding × List Carrier) :=
  (s.zone z).binding.map fun b => (b, allTenants.flatMap (carriers s z))

/-- R39: the zones that contribute to the uplink of an ACTIVE tenant's sector, each with its share in 32nds.
In start-up too it follows the records (DESIGN CHOICE, log 35). -/
def uplink (s : State) (t : Tenant) (k : Sector) : Option (List (Zone × Nat)) :=
  if isActive s t && decide (k.val < (s.tenant t).sectorCount) then
    some ((allZones.filter (inService s)).flatMap fun z =>
      (shares s z t).filterMap fun x => if x.1 = .sector k then some (z, x.2) else none)
  else none

end Sys2Proof.Machine
end

