-- ==== Sys2Proof/Safety.lean ====
section
/-! DEFINITION. The terms that claims about the part use: a port that takes octets, the row of each command, what a whole
command leaves on its port, and the laws of the part that every step keeps. -/

namespace Sys2Proof.Machine

/-! ### Control ports -/

/-- R162, R177: the port takes the next octet from its first bit: no start-up, select low and fallen since start-up, and
no octet begun. -/
def Ready (s : State) (p : Port) : Prop :=
  s.starting = false ∧ (s.port p).selectLow = true ∧ (s.port p).armed = true ∧ (s.port p).assembly = []

/-- The row of the table that carries a command's code. -/
def commandRow : Command → Port → Burst → Instr
  | .setWindow => .setWindow
  | .writeTargets => .writeTargets
  | .writeAlternates => .writeAlternates
  | .requestMove => .requestMove
  | .cancelMove => .cancelMove
  | .setLevel => .setLevel
  | .storeScene => .storeScene
  | .writeScene => .writeScene
  | .recallScene => .recallScene
  | .clearScene => .clearScene
  | .setSpreading => .setSpreading
  | .readPlan => .readPlan
  | .readGrants => .readGrants
  | .readLoads => .readLoads
  | .readFault => .readFault
  | .readStatus => .readStatus
  | .admitTenant => .admitTenant
  | .suspendTenant => .suspendTenant
  | .resumeTenant => .resumeTenant
  | .retireTenant => .retireTenant
  | .setQuota => .setQuota
  | .setLimit => .setLimit
  | .writeLimits => .writeLimits
  | .pinZone => .pinZone
  | .unpinZone => .unpinZone
  | .setVenueMode => .setVenueMode
  | .setStandbyClasses => .setStandbyClasses
  | .setWake => .setWake
  | .setDerate => .setDerate
  | .setEscalation => .setEscalation
  | .setSupervision => .setSupervision
  | .setRamp => .setRamp
  | .setCensus => .setCensus
  | .writeWeights => .writeWeights
  | .readWeights => .readWeights
  | .isolateRemote => .isolateRemote
  | .restoreRemote => .restoreRemote
  | .readZones => .readZones
  | .writeStorePage => .writeStorePage
  | .lockStorePage => .lockStorePage
  | .readStorePage => .readStorePage
  | .softReset => .softReset

/-- The rows that carry elements alone. -/
def elementRows : List (Port → Clocked → Instr) :=
  [.writeTargetsElement, .writeAlternatesElement, .writeSceneElement, .writeLimitsElement, .writeWeightsElement,
    .readPlanElement, .readGrantsElement, .readLoadsElement, .readWeightsElement, .readZonesElement]

/-- R166: the fixed writes, and READ STORE PAGE, whose parameters are collected in the same way (R167). -/
def isFixed : Command → Bool
  | .writeTargets => false
  | .writeAlternates => false
  | .writeScene => false
  | .readPlan => false
  | .readGrants => false
  | .readLoads => false
  | .readFault => false
  | .readStatus => false
  | .writeLimits => false
  | .writeWeights => false
  | .readWeights => false
  | .readZones => false
  | .softReset => false
  | _ => true

/-- R162, R167: the octet that data out presents during the first octet of a burst. -/
def firstOut (p : Port) (s : State) : Byte := dueOctet p (beginOctet p s)

/-- R164, R174: what a code octet and `n` octets after it leave on their port: the command in progress, the code, the
result, and data out. -/
def portAfter (p : Port) (c : Byte) (r : Result) (prog : Progress) (n : Nat) (s : State) : State :=
  s.modPort p fun q =>
    { q with
      cmd := prog
      lastCode := some c
      result := r
      dataOut := firstOut p s :: List.replicate n 0 }

/-- R166, R174: the port after a whole fixed command of `n` parameter octets whose result is `r`. -/
def afterFixed (p : Port) (c : Command) (n : Nat) (r : Result) (s : State) : State :=
  portAfter p (commandCode c) r .idle n s

/-- R164, R168: the port after the accepted code of a command over the window and `n` octets after it: the pointer is at
the window's first zone. -/
def windowedCode (p : Port) (c : Command) (prog : Progress) (n : Nat) (s : State) : State :=
  (portAfter p (commandCode c) .ok prog n s).modPort p fun q => { q with pointer := q.first }

/-- R163: the port is STREAMING to `w`, at the start of an element. -/
def Streaming (s : State) (p : Port) (w : WriteTo) : Prop := Ready s p ∧ (s.port p).cmd = .streaming w []

/-- R163, R170: the port is READING `r`, at the start of an element. -/
def Reading (s : State) (p : Port) (r : ReadFrom) : Prop := Ready s p ∧ (s.port p).cmd = .reading r none 0

/-- The port after `n` octets of an element, each presented as 00h. -/
def afterElement (p : Port) (n : Nat) (s : State) : State :=
  s.modPort p fun q => { q with dataOut := List.replicate n 0 }

/-! ### What a shared effect does -/

/-- Everything but what an append to the log writes (R143, R144, R148): the entries, the readers and the LOG reasons. -/
def outsideLog (s : State) : State :=
  { s with
    log := []
    venueReader := ⟨0, 0⟩
    tenantReaders := Vector.replicate 4 none
    ports := tmapIdx (fun _ q => { q with log := false }) s.ports }

/-- R33: `t` is `s` with the results held for the zones `sel` replaced by what their inputs in `s` give, and nothing else
changed: the effective limit of the zone and the request, grant and gain of its cells. -/
def Results (sel : Zone → Prop) (s t : State) : Prop :=
  t = { s with zones := t.zones, cells := t.cells } ∧
    (∀ z, sel z → t.zone z = { s.zone z with effLimit := effLimitOf s z } ∧
      ∀ u, t.cell z u =
        { s.cell z u with
          request := requestOf s z u
          grant := zoneGrant s z (effLimitOf s z) u
          gain := gainOf (requestOf s z u) (zoneGrant s z (effLimitOf s z) u) }) ∧
    ∀ z, ¬ sel z → t.zone z = s.zone z ∧ ∀ u, t.cell z u = s.cell z u

/-- R112: the zones stand in ascending position order on each port. -/
def ByPosition (s : State) (zs : List Zone) : Prop :=
  zs.Pairwise fun y z =>
    ∀ b c, (s.zone y).binding = some b → (s.zone z).binding = some c → b.port = c.port → b.pos ≤ c.pos

/-- R34 to R36, R112: `t` is `s` after allotment passes at the zones `sel`: the results of those zones are replaced, and
then one SET is queued for each bound zone whose effective limit the passes have changed, in ascending position order on
each port. Nothing else changes. -/
def Passed (sel : Zone → Prop) (s t : State) : Prop :=
  ∃ (r : State) (zs : List Zone),
    Results sel s r ∧ t = zs.foldl (fun a z => queueSet z a) r ∧ zs.Nodup ∧ ByPosition s zs ∧
      ∀ z, z ∈ zs ↔ sel z ∧ (s.zone z).binding ≠ none ∧ effLimitOf s z ≠ (s.zone z).effLimit

/-- R33: the results held for a zone are those that its inputs give. -/
def FreshAt (s : State) (z : Zone) : Prop :=
  (s.zone z).effLimit = effLimitOf s z ∧
    ∀ t, (s.cell z t).request = requestOf s z t ∧ (s.cell z t).grant = zoneGrant s z (effLimitOf s z) t ∧
      (s.cell z t).gain = gainOf (s.cell z t).request (s.cell z t).grant

/-- R45 to R49: `t` is `s` after the admission of `n` pending cells, each as `admitNext` takes it, and after some WAITING
moves have started RAMPING, with the passes of their zones. Nothing else changes. -/
def SettledBy (n : Nat) (s t : State) : Prop :=
  List.Forall₂ (fun m k => k = m ∨ (m.state = .waiting ∧ k = { m with state := .ramping })) (admitNext^[n] s).moves t.moves ∧
    Passed
      (fun z => ((admitNext^[n] s).moves.filter fun m => m.zone == z) ≠ t.moves.filter fun m => m.zone == z)
      { admitNext^[n] s with moves := t.moves } t

/-- R45 to R49, R65: the close of an event that began in `before`, from `s` to `t`: admissions and ramp slots as
`SettledBy` has them; then a tenant that is ACTIVE and has neither a move nor a pending cell, but had one before the
event, gains MOVES_IDLE. Nothing else changes. -/
def Closed (before s t : State) : Prop :=
  ∃ (n : Nat) (v : State),
    SettledBy n s v ∧ t = { v with ports := t.ports } ∧ t.port .venue = s.port .venue ∧
      ∀ u, t.port (.tenant u) =
        { s.port (.tenant u) with
          movesIdle := (s.port (.tenant u)).movesIdle ||
            ((s.tenant u).state == .active && hasWork before u && !hasWork t u) }

/-- R106, R108 to R110: what follows the close of a reply window of position `pos` with the results `results`, once the
close's own result has been handled (`d`), in an event that began in `before`: the turn of the lowest bound position
above `pos`, its gap carrying the frames queued by then, or, where there is none, the round end and the queue. That a
position below the one chosen here, bound only in the gap, waits for the next round is a DESIGN CHOICE (log 30). -/
def RoundGoesOn (before : State) (f : FPort) (pos : Pos) (results : List (Pos × Bool)) (d t : State) : Prop :=
  (∀ next ∈ boundPositions d f, pos < next → (∀ p ∈ boundPositions d f, pos < p → next ≤ p) →
    Closed before
      (d.modLink f fun l =>
        { l with
          sending := if l.locked = false then .nothing else if l.queue = [] then .poll else .queued
          round := some
            { pos := next
              phase :=
                if l.locked = false then .window false else if l.queue = [] then .poll else .gap l.queue.length
              results := results } })
      t) ∧
    ((∀ p ∈ boundPositions d f, p ≤ pos) →
      Closed before (startQueued f ((roundEnd f results d).modLink f fun l => { l with round := none })) t)

/-- R130: `t` is `s` after the remote of zone `z` has entered ISOLATED with a cause: its record changes, the outage rule
applies where it was in service (R16), the results of its zone follow, and one SET is queued for it, with which the SET
that its pass owes coalesces. -/
def EntersIsolated (z : Zone) (cause : IsolationCause) (s t : State) : Prop :=
  ∃ v, t = queueSet z v ∧
    Results (fun y => y = z)
      { s.modRemote z fun r =>
          { r with
            state := .isolated
            cause := some cause
            missCount := 0
            goodCount := 0
            overdrive := 0
            alarms := tmapIdx (fun _ a => { a with escalation := 0 }) r.alarms
            unreachable := false
            behindBreak := false } with
        cells :=
          if inService s z then (s.modZoneCells z fun _ c => { c with home := c.target, occupancy := 0 }).cells else s.cells
        moves := if inService s z then s.moves.filter fun m => m.zone != z else s.moves }
      v

/-! ### The laws of the part -/

/-- R44: the bounds of the Move Queue and its slots, one move to a cell, and weights of 0 to 32 (R42). -/
def MoveQueueBounded (s : State) : Prop :=
  s.moves.length ≤ 32 ∧ (∀ t, moveCount s t ≤ 16) ∧ rampingCount s ≤ 8 ∧
    (s.moves.map fun m => (m.zone, m.tenant)).Nodup ∧ ∀ m ∈ s.moves, m.weight ≤ 32

/-- R3: the shares of the admitted tenants sum to at most 32. -/
def QuotaBounded (s : State) : Prop := quotaSum (fun _ => true) s ≤ 32

/-- R9: a live limit is at most its ceiling, and a ceiling at most 16383. -/
def LimitsBounded (s : State) : Prop := ∀ z, (s.zone z).live ≤ (s.zone z).ceiling ∧ (s.zone z).ceiling ≤ 16383

/-- R24, R56, R81, R89, R118, R126, R139: each setting of the part stands in its range. -/
def SettingsBounded (s : State) : Prop :=
  (1 ≤ s.rampTick ∧ s.rampTick ≤ 255) ∧ (1 ≤ s.rampStep ∧ s.rampStep ≤ 32) ∧
    (1 ≤ s.censusInterval ∧ s.censusInterval ≤ 255) ∧ (5 ≤ s.pollInterval ∧ s.pollInterval ≤ 255) ∧
    (2 ≤ s.lossThreshold ∧ s.lossThreshold ≤ 15) ∧ (1 ≤ s.recoveryCount ∧ s.recoveryCount ≤ 7) ∧
    (1 ≤ s.alarmDebounce ∧ s.alarmDebounce ≤ 8) ∧ (1 ≤ s.wakeDebounce ∧ s.wakeDebounce ≤ 15) ∧
    (∀ i, tget s.derate i ≤ 32) ∧
    ∀ t, (s.tenant t).spreading.low < (s.tenant t).spreading.high ∧ (s.tenant t).spreading.high ≤ 12240 ∧
      1 ≤ (s.tenant t).spreading.debounce ∧ (s.tenant t).spreading.debounce ≤ 15 ∧ 4 ≤ (s.tenant t).spreading.longCount

/-- R112: no transmit queue holds more than 4 frames. -/
def QueuesBounded (s : State) : Prop := ∀ f, (s.link f).queue.length ≤ 4

/-- R144, R145: the log holds at most 64 entries, and every cursor stands in it or just behind it. -/
def LogBounded (s : State) : Prop :=
  s.log.length ≤ 64 ∧ ∀ p r, s.reader p = some r → r.cursor ≤ s.log.length ∧ r.lost ≤ 255

/-- R148, R175: the LOG reason of every port stands as its reader and the log give it: a visible unread entry, or a lost
count above 0; a port without a reader has none. -/
def LogReasonsSound (s : State) : Prop :=
  ∀ p, (s.port p).log =
    match s.reader p with
    | none => false
    | some r => decide (0 < r.lost) || (s.log.drop r.cursor).any (visibleTo p)

/-- R33: the results held for every zone are those that its inputs give. -/
def AllotmentFresh (s : State) : Prop := ∀ z, FreshAt s z

/-- R16: at a zone whose remote is out of service, every cell has its target equal to its home and occupancy 0, and no
move exists. -/
def OutageSettled (s : State) : Prop :=
  ∀ z, inService s z = false →
    ∀ t, (s.cell z t).home = (s.cell z t).target ∧ (s.cell z t).occupancy = 0 ∧ moveAt s z t = none

/-- R45, R49: nothing waits that could go on: the Move Queue is full or no tenant has both a pending cell and room, and 8
moves are RAMPING or none is WAITING. -/
def NothingHeldBack (s : State) : Prop :=
  (32 ≤ s.moves.length ∨ ∀ t, 16 ≤ moveCount s t ∨ ∀ z, pendingCell s z t = false) ∧
    (8 ≤ rampingCount s ∨ ∀ m ∈ s.moves, m.state = .ramping)

/-- R1, R12, R42: every move leaves its cell's home for another sector, and belongs to an ACTIVE tenant; a WAITING move has
weight 0 and direction FORWARD, and no pinned zone has one; at a pinned zone a RAMPING move ends where its cell's target
points, and no cell is pending; a tenant that is not ACTIVE has every target at its home, and its port has no command in
progress but a fixed-length reply. -/
def PlanSound (s : State) : Prop :=
  (∀ m ∈ s.moves, m.src = (s.cell m.zone m.tenant).home ∧ m.src ≠ m.dst ∧ (s.tenant m.tenant).state = .active ∧
      (m.state = .waiting → m.weight = 0 ∧ m.dir = .forward ∧ (s.zone m.zone).pinned = false) ∧
      (m.state = .ramping → (s.zone m.zone).pinned = true →
        (s.cell m.zone m.tenant).target = if m.dir = .forward then m.dst else m.src)) ∧
    (∀ z t, (s.zone z).pinned = true → pendingCell s z t = false) ∧
    ∀ t, (s.tenant t).state ≠ .active →
      (∀ z, (s.cell z t).target = (s.cell z t).home) ∧
        ((s.port (.tenant t)).cmd = .idle ∨ ∃ os held n, (s.port (.tenant t)).cmd = .reading (.reply os) held n)

/-- R153: no two zones are bound to the same port and position, and the records of a page write in progress keep it so. -/
def BindingsDistinct (s : State) : Prop :=
  (∀ y z b, (s.zone y).binding = some b → (s.zone z).binding = some b → y = z) ∧
    ∀ p records, s.storeOp = some (.write p records) → recordsAcceptable s p records.toList = true

end Sys2Proof.Machine
end

