-- ==== Sys2Proof/Certificates/Slice0/Obligations.lean ====
section
/-! DEFINITION. The statements about the NH448 for the provers: what each command and event of the table does, what the
shared operations compute, and the laws that every step keeps. -/

section

open Sys2Proof Sys2Proof.Machine

/-! ### The queue -/

/-- The command at the front of the queue runs on the state with the queue's rest. -/
def Obligations.StepRunsFront : Prop :=
  ∀ (c : Instr) (rest : List Instr) (s : State), step { s with pending := c :: rest } = exec c { s with pending := rest }

/-- With nothing waiting the block idles (DESIGN CHOICE, log 2), and every command gives a next state, whatever its operands
and the state, and leaves the commands behind it waiting. -/
def Obligations.NeverStops : Prop :=
  (∀ s : State, s.pending = [] → step s = .next s) ∧
  (∀ (c : Instr) (s : State), ∃ t, exec c s = .next t ∧ t.pending = s.pending)

/-! ### Reset -/

/-- The laws of the part hold after reset. -/
def Obligations.LawsHoldAtReset : Prop :=
  LogBounded State.reset ∧ MoveQueueBounded State.reset ∧ NothingHeldBack State.reset ∧ AllotmentFresh State.reset ∧
    OutageSettled State.reset ∧ PlanSound State.reset ∧ QuotaBounded State.reset ∧ LimitsBounded State.reset ∧
    SettingsBounded State.reset ∧ QueuesBounded State.reset ∧ BindingsDistinct State.reset ∧ LogReasonsSound State.reset

/-- What start-up leaves in the records of the part, at reset: a factory-fresh store (DESIGN CHOICE, log 6 and 7), so
every zone is without a binding. The spreading settings and the census state of a VACANT tenant are a DESIGN CHOICE (log
19). -/
def Obligations.ResetValues : Prop :=
  (∀ t, State.reset.tenant t = TenantRec.vacant) ∧
    (∀ z t, (State.reset.cell z t).home = .dark ∧ (State.reset.cell z t).target = .dark ∧
      (State.reset.cell z t).source = .tenant ∧ (State.reset.cell z t).alternates = [] ∧
      (State.reset.cell z t).holdOff = 0 ∧ (State.reset.cell z t).occupancy = 0) ∧
    (∀ z, State.reset.zone z = ⟨.service, 0, none, 0, false, 0⟩ ∧ State.reset.remote z = RemoteRec.unbound) ∧
    State.reset.log = allPages.map (Entry.pageInvalid 0) ∧ State.reset.seconds = 0 ∧ State.reset.storeOp = none ∧
    State.reset.venueReader = ⟨0, 0⟩ ∧ (∀ t, tget State.reset.tenantReaders t = none) ∧
    State.reset.wakeThreshold = 0 ∧ State.reset.wakeDebounce = 3 ∧ State.reset.wakeCount = 0 ∧
    (∀ c, tget State.reset.standbyDark c = false) ∧ State.reset.rampTimer = ⟨true, 10⟩ ∧
    State.reset.censusTimer = ⟨true, 10⟩ ∧ State.reset.pollTimer = ⟨true, 50⟩ ∧
    State.reset.moves = [] ∧ State.reset.admitPos = 3 ∧ State.reset.rampTick = 10 ∧ State.reset.rampStep = 4 ∧
    State.reset.venueMode = .event ∧ State.reset.censusInterval = 10 ∧ State.reset.pollInterval = 50 ∧
    (∀ i : Fin 16, tget State.reset.weights i = 17 * i.val) ∧
    State.reset.lossThreshold = 4 ∧ State.reset.recoveryCount = 2 ∧ State.reset.alarmDebounce = 2 ∧
    State.reset.derate = #v[16, 8, 32, 32] ∧ State.reset.escalation = #v[120, 0, 0, 0] ∧
    (∀ f, (State.reset.link f).queue = [.chainMute] ∧ (State.reset.link f).round = none ∧
      (State.reset.link f).rx = .seeking) ∧
    (∀ p, (State.reset.port p).cmd = .idle ∧ (State.reset.port p).first = 0 ∧ (State.reset.port p).last = 47 ∧
      (State.reset.port p).pointer = 0 ∧ (State.reset.port p).lastCode = none ∧ (State.reset.port p).result = .none)

/-! ### Codes and checks -/

/-- The command code table: each command has the code of 11.5, and no other code names a command. The CRC over the nine
ASCII octets "123456789" is 29B1h. -/
def Obligations.CodesAndCrc : Prop :=
  ((∀ x ∈ ([
        (.setWindow, 0x01), (.writeTargets, 0x02), (.writeAlternates, 0x03), (.requestMove, 0x04),
        (.cancelMove, 0x05), (.setLevel, 0x06), (.storeScene, 0x07), (.writeScene, 0x08), (.recallScene, 0x09),
        (.clearScene, 0x0A), (.setSpreading, 0x0B), (.readPlan, 0x10), (.readGrants, 0x11), (.readLoads, 0x12),
        (.readFault, 0x13), (.readStatus, 0x14), (.admitTenant, 0x20), (.suspendTenant, 0x21),
        (.resumeTenant, 0x22), (.retireTenant, 0x23), (.setQuota, 0x24), (.setLimit, 0x28), (.writeLimits, 0x29),
        (.pinZone, 0x2A), (.unpinZone, 0x2B), (.setVenueMode, 0x2C), (.setStandbyClasses, 0x2D), (.setWake, 0x2E),
        (.setDerate, 0x30), (.setEscalation, 0x31), (.setSupervision, 0x32), (.setRamp, 0x33), (.setCensus, 0x34),
        (.writeWeights, 0x35), (.readWeights, 0x36), (.isolateRemote, 0x37), (.restoreRemote, 0x38),
        (.readZones, 0x39), (.writeStorePage, 0x40), (.lockStorePage, 0x41), (.readStorePage, 0x42),
        (.softReset, 0x4F)
        ] : List (Command × Byte)), commandCode x.1 = x.2) ∧
      (∀ b c, commandOf b = some c ↔ b = commandCode c)) ∧
  (crc16 [0x31, 0x32, 0x33, 0x34, 0x35, 0x36, 0x37, 0x38, 0x39] = 0x29B1)

/-! ### Control ports -/

/-- A port whose select is high, and a port in start-up or one whose select has not fallen since start-up, takes no
octet: only the record of what data out presents changes (all 00h, or nothing). A rise of select drops the bits of an
octet in assembly and keeps everything else; a fall of a select that is high arms the port. What data out presents is
the model's own record (DESIGN CHOICE, log 12). -/
def Obligations.PortSelect : Prop :=
  (∀ (s : State) (p : Port), ((s.port p).selectLow = false ∨ s.starting = true ∨ (s.port p).armed = false) →
      ∀ i, ((∃ c b, i = commandRow c p b) ∨ (∃ row ∈ elementRows, ∃ c, i = row p c) ∨ (∃ code c, i = .unknownCommand p code c)) →
      ∃ out : List Byte, (∀ b ∈ out, b = 0) ∧ exec i s = .next (s.modPort p fun q => { q with dataOut := out })) ∧
  (∀ (s : State) (p : Port),
      exec (.selectRise p) s = .next (s.modPort p fun q => { q with selectLow := false, assembly := [], dataOut := [] }) ∧
      ((s.port p).selectLow = false →
        exec (.selectFall p) s = .next (s.modPort p fun q => { q with selectLow := true, armed := true, dataOut := [] })) ∧
      ((s.port p).selectLow = true → exec (.selectFall p) s = .next s))

/-- UNKNOWN_COMMAND, with any octets after it, and the refusals of the rights table: the code and its refusal stay on the
port, the command in progress before it has ended, and the octets after the code are ignored. -/
def Obligations.RefusedCodes : Prop :=
  (∀ (s : State) (p : Port) (code : Byte) (os : List Byte), Ready s p → commandOf code = none →
      exec (.unknownCommand p code (Clocked.whole os)) s = .next (portAfter p code .unknown .idle os.length s)) ∧
  (∀ (s : State) (c : Command) (os : List Byte),
      (Ready s .venue → commandKind c = .tenant →
        exec (commandRow c .venue (Burst.whole os)) s =
          .next (portAfter .venue (commandCode c) .rights .idle os.length s)) ∧
      ∀ t, Ready s (.tenant t) →
        (commandKind c = .venue →
          exec (commandRow c (.tenant t) (Burst.whole os)) s =
            .next (portAfter (.tenant t) (commandCode c) .rights .idle os.length s)) ∧
        ((commandKind c = .tenant ∨ c = .setWindow ∨ c = .readPlan ∨ c = .readGrants) →
          (s.tenant t).state ≠ .active →
          exec (commandRow c (.tenant t) (Burst.whole os)) s =
            .next (portAfter (.tenant t) (commandCode c) .state .idle os.length s)) ∧
        (c = .readFault → (s.tenant t).state = .vacant →
          exec (commandRow c (.tenant t) (Burst.whole os)) s =
            .next (portAfter (.tenant t) (commandCode c) .state .idle os.length s)))

/-- Octets and bits that arrive in parts. A fixed command whose parameters are not all there has no effect yet, and the rest
of them, whenever they come, complete it. An element of a streamed write goes to its block at its last octet. An element
of a read that is not clocked out whole stays held, and its last octet moves the read on; octets past the end of a
fixed-length reply present 00h. On an IDLE port octets are ignored. Bits that do not complete an octet join the assembly,
and those that begin the first octet of a read element take its values; the eighth bit gives the octet the bits spell, a
command code where the line was low at its first bit. How a row carries octets and bits, and what data out has presented,
are DESIGN CHOICES (log 1 and 12); when a read element is taken is DEDUCED (log 32). -/
def Obligations.OctetsInParts : Prop :=
  ∀ (s : State) (p : Port) (os rest : List Byte), Ready s p →
    (∀ c, isFixed c = true →
      (refusalOf s p c = none → os.length < paramCount (p == .venue) c →
        exec (commandRow c p (Burst.whole os)) s =
          .next (portAfter p (commandCode c) .incomplete (.collecting c os) os.length s)) ∧
      ((s.port p).cmd = .collecting c os → os.length + rest.length < paramCount (p == .venue) c →
        exec (commandRow c p (.more (Clocked.whole rest))) s =
          .next (s.modPort p fun q =>
            { q with cmd := .collecting c (os ++ rest), dataOut := List.replicate rest.length 0 })) ∧
      ((s.port p).cmd = .collecting c os → rest ≠ [] → os.length + rest.length = paramCount (p == .venue) c →
        exec (commandRow c p (.more (Clocked.whole rest))) s =
          .next (complete p c (os ++ rest) (s.modPort p fun q => { q with dataOut := List.replicate rest.length 0 })))) ∧
    (let begin := fun (x : State) (bits : List LineBit) => x.modPort p fun q =>
      { q with
        assembly := bits
        cmd := match q.cmd with
          | .reading r none n => if bits = [] then .reading r none n else .reading r (some (readElement p x r)) n
          | c => c }
    (∀ row : Clocked → Instr, ((∃ e ∈ elementRows, row = e p) ∨ ∃ c, row = fun x => commandRow c p (.more x)) →
      (∀ w, (s.port p).cmd = .streaming w os →
        (os.length + rest.length < writeSize w →
          exec (row (Clocked.whole rest)) s =
            .next (s.modPort p fun q =>
              { q with cmd := .streaming w (os ++ rest), dataOut := List.replicate rest.length 0 })) ∧
        (rest ≠ [] → os.length + rest.length = writeSize w →
          exec (row (Clocked.whole rest)) s =
            .next (applyElement p w (os ++ rest)
              (s.modPort p fun q => { q with cmd := .streaming w [], dataOut := List.replicate rest.length 0 })))) ∧
      (∀ r el n, (s.port p).cmd = .reading r (some el) n →
        (n + rest.length < readSize r →
          exec (row (Clocked.whole rest)) s =
            .next (s.modPort p fun q =>
              { q with
                cmd := .reading r (some el) (n + rest.length)
                dataOut := (List.range' n rest.length).map fun i => el.getD i 0 })) ∧
        ((∀ reply, r ≠ .reply reply) → rest ≠ [] → n + rest.length = readSize r →
          exec (row (Clocked.whole rest)) s =
            .next (s.modPort p fun q =>
              { q with
                cmd := .reading (nextRead s r) none 0
                pointer := if windowedRead r = true then nextPointer q else q.pointer
                dataOut := (List.range' n rest.length).map fun i => el.getD i 0 })) ∧
        (r = .reply el → n ≤ el.length →
          exec (row (Clocked.whole rest)) s =
            .next (s.modPort p fun q =>
              { q with
                cmd := .reading r (some el) (min (n + rest.length) el.length)
                dataOut := (List.range' n rest.length).map fun i => el.getD i 0 }))) ∧
      ((s.port p).cmd = .idle →
        exec (row (Clocked.whole rest)) s =
          .next (s.modPort p fun q => { q with dataOut := List.replicate rest.length 0 })) ∧
      ∀ held tail : List LineBit, held.length < 8 →
        let broken := s.modPort p fun q => { q with assembly := held }
        (held.length + tail.length < 8 →
          exec (row ⟨[], tail⟩) broken =
            .next ((begin s (held ++ tail)).modPort p fun q => { q with dataOut := [] })) ∧
        ∀ (b : Byte) (level : Bool),
          (held ++ tail).map LineBit.din =
            [b.getLsbD 7, b.getLsbD 6, b.getLsbD 5, b.getLsbD 4, b.getLsbD 3, b.getLsbD 2, b.getLsbD 1, b.getLsbD 0] →
          (held ++ tail).head?.map LineBit.param = some level →
          exec (row ⟨[], tail⟩) broken =
            if level = true then exec (row (Clocked.whole [b])) s
            else exec (.unknownCommand p b (Clocked.whole [])) s) ∧
    ∀ row : Clocked → Instr,
      ((∃ e ∈ elementRows, row = e p) ∨ ∃ c, (row = fun x => commandRow c p (.more x)) ∨ row = fun x => commandRow c p (.code x)) →
      ∀ (tail : List LineBit) (w : State), tail.length < 8 → exec (row (Clocked.whole os)) s = .next w →
        exec (row ⟨os, tail⟩) s = .next (if w.starting = true ∨ tail = [] then w else begin w tail))

/-- SET_WINDOW. -/
def Obligations.SetWindow : Prop :=
  ∀ (s : State) (p : Port) (a b : Byte), Ready s p →
    (∀ t, p = .tenant t → (s.tenant t).state = .active) →
    (47 < a.toNat ∨ 47 < b.toNat ∨ b.toNat < a.toNat →
      exec (.setWindow p (Burst.whole [a, b])) s = .next (afterFixed p .setWindow 2 .range s)) ∧
    (∀ x y : Zone, x ≤ y → a.toNat = x.val → b.toNat = y.val →
      exec (.setWindow p (Burst.whole [a, b])) s =
        .next ((afterFixed p .setWindow 2 .ok s).modPort p fun q => { q with first := x, last := y, pointer := x }))

/-- The codes of the streamed writes and reads: the pointer is at the window's first zone and the result OK. WRITE SCENE
takes its slot number, and READ PLAN and READ GRANTS on port V their tenant number, in the burst of the code or in a later
one; one above 3 is refused. That a port awaiting that number has a progress of its own is DEDUCED (log 28). -/
def Obligations.StreamedCodes : Prop :=
  (∀ s : State,
      (Ready s .venue →
        exec (.writeLimits .venue (Burst.whole [])) s =
          .next (windowedCode .venue .writeLimits (.streaming .limits []) 0 s) ∧
        exec (.writeWeights .venue (Burst.whole [])) s =
          .next (portAfter .venue (commandCode .writeWeights) .ok (.streaming (.weights 0) []) 0 s)) ∧
      ∀ t, Ready s (.tenant t) → (s.tenant t).state = .active →
        exec (.writeTargets (.tenant t) (Burst.whole [])) s =
          .next (windowedCode (.tenant t) .writeTargets (.streaming .targets []) 0 s) ∧
        exec (.writeAlternates (.tenant t) (Burst.whole [])) s =
          .next (windowedCode (.tenant t) .writeAlternates (.streaming .alternates []) 0 s) ∧
        exec (.writeScene (.tenant t) (Burst.whole [])) s =
          .next (windowedCode (.tenant t) .writeScene (.leading .writeScene) 0 s) ∧
        ∀ b : Byte,
          (∀ k : Slot, b.toNat = k.val →
            exec (.writeScene (.tenant t) (Burst.whole [b])) s =
              .next (windowedCode (.tenant t) .writeScene (.streaming (.scene k) []) 1 s)) ∧
          (3 < b.toNat →
            exec (.writeScene (.tenant t) (Burst.whole [b])) s =
              .next (setResult (.tenant t) .range (windowedCode (.tenant t) .writeScene .idle 1 s)))) ∧
  (∀ s : State,
      (∀ t, Ready s (.tenant t) → (s.tenant t).state = .active →
        exec (.readPlan (.tenant t) (Burst.whole [])) s =
          .next (windowedCode (.tenant t) .readPlan (.reading (.plan t) none 0) 0 s) ∧
        exec (.readGrants (.tenant t) (Burst.whole [])) s =
          .next (windowedCode (.tenant t) .readGrants (.reading (.grants t) none 0) 0 s) ∧
        exec (.readLoads (.tenant t) (Burst.whole [])) s =
          .next (portAfter (.tenant t) (commandCode .readLoads) .ok (.reading (.loads t 0) none 0) 0 s)) ∧
      (Ready s .venue →
        exec (.readZones .venue (Burst.whole [])) s =
          .next (windowedCode .venue .readZones (.reading .zones none 0) 0 s) ∧
        exec (.readWeights .venue (Burst.whole [])) s =
          .next (portAfter .venue (commandCode .readWeights) .ok (.reading (.weights 0) none 0) 0 s) ∧
        exec (.readPlan .venue (Burst.whole [])) s =
          .next (windowedCode .venue .readPlan (.leading .readPlan) 0 s) ∧
        exec (.readGrants .venue (Burst.whole [])) s =
          .next (windowedCode .venue .readGrants (.leading .readGrants) 0 s) ∧
        ∀ b : Byte,
          (∀ t : Tenant, b.toNat = t.val →
            exec (.readPlan .venue (Burst.whole [b])) s =
              .next (windowedCode .venue .readPlan (.reading (.plan t) none 0) 1 s) ∧
            exec (.readGrants .venue (Burst.whole [b])) s =
              .next (windowedCode .venue .readGrants (.reading (.grants t) none 0) 1 s)) ∧
          (3 < b.toNat →
            exec (.readPlan .venue (Burst.whole [b])) s =
              .next (setResult .venue .range (windowedCode .venue .readPlan .idle 1 s)) ∧
            exec (.readGrants .venue (Burst.whole [b])) s =
              .next (setResult .venue .range (windowedCode .venue .readGrants .idle 1 s))))) ∧
  ∀ (s : State) (p : Port) (b : Byte), Ready s p →
    let goesOn := fun (r : ReadFrom) => s.modPort p fun q => { q with cmd := .reading r none 0, dataOut := [0] }
    let refused := s.modPort p fun q => { q with cmd := .idle, result := .range, dataOut := [0] }
    ((s.port p).cmd = .leading .writeScene →
      (∀ k : Slot, b.toNat = k.val →
        exec (.writeScene p (.more (Clocked.whole [b]))) s =
          .next (s.modPort p fun q => { q with cmd := .streaming (.scene k) [], dataOut := [0] })) ∧
      (3 < b.toNat → exec (.writeScene p (.more (Clocked.whole [b]))) s = .next refused)) ∧
    ((s.port p).cmd = .leading .readPlan →
      (∀ t : Tenant, b.toNat = t.val → exec (.readPlan p (.more (Clocked.whole [b]))) s = .next (goesOn (.plan t))) ∧
      (3 < b.toNat → exec (.readPlan p (.more (Clocked.whole [b]))) s = .next refused)) ∧
    ((s.port p).cmd = .leading .readGrants →
      (∀ t : Tenant, b.toNat = t.val → exec (.readGrants p (.more (Clocked.whole [b]))) s = .next (goesOn (.grants t))) ∧
      (3 < b.toNat → exec (.readGrants p (.more (Clocked.whole [b]))) s = .next refused))

/-- One element of each streamed read: its octets are those of the element as it stands, and the pointer, the sector
or the entry moves on. When exactly the values are taken is DEDUCED (log 32). -/
def Obligations.ReadElements : Prop :=
  ∀ (s : State) (p : Port) (os : List Byte),
    (∀ t, Reading s p (.plan t) → os.length = 9 →
      exec (.readPlanElement p (Clocked.whole os)) s = .next (s.modPort p fun q =>
        { q with dataOut := planElement s t q.pointer, pointer := nextPointer q })) ∧
    (∀ t, Reading s p (.grants t) → os.length = 6 →
      exec (.readGrantsElement p (Clocked.whole os)) s = .next (s.modPort p fun q =>
        { q with dataOut := grantsElement s t q.pointer, pointer := nextPointer q })) ∧
    (Reading s p .zones → os.length = 23 →
      exec (.readZonesElement p (Clocked.whole os)) s = .next (s.modPort p fun q =>
        { q with dataOut := zonesElement s q.pointer, pointer := nextPointer q })) ∧
    (∀ t k, Reading s p (.loads t k) → os.length = 10 →
      exec (.readLoadsElement p (Clocked.whole os)) s = .next (s.modPort p fun q =>
        { q with
          dataOut := loadsElement s t k
          cmd := .reading (.loads t (nextSector (s.tenant t).sectorCount k)) none 0 })) ∧
    (∀ i, Reading s p (.weights i) → os.length = 1 →
      exec (.readWeightsElement p (Clocked.whole os)) s = .next (s.modPort p fun q =>
        { q with dataOut := [octet (tget s.weights i)], cmd := .reading (.weights (i + 1)) none 0 }))

/-- READ_STATUS: the four octets of the reply; MOVES_IDLE and STORE_DONE leave, and LOG, the last command code and the
result stay. The attention line of a port is asserted exactly while it has a reason and no start-up is in progress; that
it is computed from the reasons is DEDUCED (log 18). READ_STORE_PAGE: the stored octets, the lock state and the validity
of a page. -/
def Obligations.FixedReplies : Prop :=
  (∀ (s : State) (p : Port) (os : List Byte), Ready s p → os.length = 4 →
      exec (.readStatus p (Burst.whole os)) s = .next (s.modPort p fun q =>
        { q with
          cmd := .reading (.reply (statusReply p s)) (some (statusReply p s)) 4
          movesIdle := false
          storeDone := false
          dataOut := firstOut p s :: statusReply p s })) ∧
  (∀ (s : State) (p : Port),
      let q := s.port p
      statusReply p s =
        [q.lastCode.getD 0xFF, octet (resultCode q.result),
          octet ((if q.log = true then 1 else 0) + (if q.movesIdle = true then 2 else 0) +
            if q.storeDone = true then 4 else 0),
          match p with
          | .tenant t => octet (tenantStateCode (s.tenant t).state)
          | .venue => 0xFF] ∧
      (attentionAsserted s p = true ↔
        s.starting = false ∧ (q.log = true ∨ q.movesIdle = true ∨ q.storeDone = true))) ∧
  (∀ (s : State) (b : Byte) (os : List Byte), Ready s .venue → os.length = 34 →
      (5 < b.toNat →
        exec (.readStorePage .venue (Burst.whole (b :: os))) s = .next (afterFixed .venue .readStorePage 35 .range s)) ∧
      (b.toNat ≤ 5 → s.storeOp.isSome = true →
        exec (.readStorePage .venue (Burst.whole (b :: os))) s = .next (afterFixed .venue .readStorePage 35 .busy s)) ∧
      (∀ n : PageNo, b.toNat = n.val → s.storeOp = none →
        exec (.readStorePage .venue (Burst.whole (b :: os))) s = .next
          ((portAfter .venue (commandCode .readStorePage) .ok
              (.reading (.reply (pageReply (tget s.pages n))) (some (pageReply (tget s.pages n))) 34) 0 s).modPort .venue
            fun q => { q with dataOut := [firstOut .venue s, 0] ++ pageReply (tget s.pages n) })))

/-- READ_FAULT: the first visible entry at or after the cursor is read, and the cursor stands behind it; with none, the
reply is of kind NONE and the cursor is at "after newest". The lost count is read and returns to 0, and LOG is evaluated
for this reader. -/
def Obligations.ReadFault : Prop :=
  ∀ (s : State) (p : Port) (r : Reader) (os : List Byte), Ready s p → s.reader p = some r → os.length = 16 →
    (∀ t, p = .tenant t → (s.tenant t).state ≠ .vacant) →
    (∀ (i : Nat) (e : Entry), r.cursor ≤ i → s.log[i]? = some e → visibleTo p e = true →
      (∀ j d, r.cursor ≤ j → j < i → s.log[j]? = some d → visibleTo p d = false) →
      exec (.readFault p (Burst.whole os)) s = .next
        ((s.setReader p ⟨i + 1, 0⟩).modPort p fun q =>
          { q with
            cmd := .reading (.reply (faultReply e r.lost)) (some (faultReply e r.lost)) 16
            lastCode := some (commandCode .readFault)
            result := .ok
            log := (s.log.drop (i + 1)).any (visibleTo p)
            dataOut := firstOut p s :: faultReply e r.lost })) ∧
    ((∀ j d, r.cursor ≤ j → s.log[j]? = some d → visibleTo p d = false) →
      exec (.readFault p (Burst.whole os)) s = .next
        ((s.setReader p ⟨s.log.length, 0⟩).modPort p fun q =>
          { q with
            cmd := .reading (.reply (faultReplyNone s.seconds r.lost)) (some (faultReplyNone s.seconds r.lost)) 16
            lastCode := some (commandCode .readFault)
            result := .ok
            log := false
            dataOut := firstOut p s :: faultReplyNone s.seconds r.lost }))

/-! ### Tenants -/

/-- ADMIT_TENANT: the refusals in their order; else the record, the column and the reader of the new tenant, and a pass
at every zone. -/
def Obligations.AdmitTenant : Prop :=
  ∀ (s : State) (a quota count : Byte), Ready s .venue →
    (3 < a.toNat →
      exec (.admitTenant .venue (Burst.whole [a, quota, count])) s = .next (afterFixed .venue .admitTenant 3 .range s)) ∧
    ∀ t : Tenant, a.toNat = t.val →
      ((s.tenant t).state ≠ .vacant →
        exec (.admitTenant .venue (Burst.whole [a, quota, count])) s =
          .next (afterFixed .venue .admitTenant 3 .state s)) ∧
      ((s.tenant t).state = .vacant →
        (count.toNat < 1 ∨ 6 < count.toNat ∨ 32 < quota.toNat + quotaSum (fun _ => true) s) →
        exec (.admitTenant .venue (Burst.whole [a, quota, count])) s =
          .next (afterFixed .venue .admitTenant 3 .range s)) ∧
      ((s.tenant t).state = .vacant → 1 ≤ count.toNat → count.toNat ≤ 6 →
        quota.toNat + quotaSum (fun _ => true) s ≤ 32 →
        ∃ w, exec (.admitTenant .venue (Burst.whole [a, quota, count])) s = .next w ∧
          Passed (fun _ => True)
            { (afterFixed .venue .admitTenant 3 .ok s).modPort (.tenant t) fun q => { q with log := false } with
              tenants := tset s.tenants t
                { state := .active
                  quota := quota.toNat
                  sectorCount := count.toNat
                  levels := Vector.replicate 6 0
                  presence := tmapIdx (fun k lock => decide (k.val < count.toNat) && lock) (tget s.carrierLock t)
                  scenes := Vector.replicate 4 none
                  spreading := Spreading.admission
                  census := Vector.replicate 6 SectorCensus.admission }
              cells := (s.modColumn t fun c =>
                { c with home := .dark, target := .dark, source := .tenant, alternates := [], holdOff := 0 }).cells
              tenantReaders := tset s.tenantReaders t (some ⟨s.log.length, 0⟩) }
            w)

/-- SET_QUOTA: the refusals in their order; else the share, and a pass at every zone if it changed. -/
def Obligations.SetQuota : Prop :=
  ∀ (s : State) (a share : Byte), Ready s .venue →
    (3 < a.toNat →
      exec (.setQuota .venue (Burst.whole [a, share])) s = .next (afterFixed .venue .setQuota 2 .range s)) ∧
    ∀ t : Tenant, a.toNat = t.val →
      ((s.tenant t).state = .vacant →
        exec (.setQuota .venue (Burst.whole [a, share])) s = .next (afterFixed .venue .setQuota 2 .state s)) ∧
      ((s.tenant t).state ≠ .vacant → 32 < share.toNat + quotaSum (fun u => u != t) s →
        exec (.setQuota .venue (Burst.whole [a, share])) s = .next (afterFixed .venue .setQuota 2 .range s)) ∧
      ((s.tenant t).state ≠ .vacant → share.toNat + quotaSum (fun u => u != t) s ≤ 32 →
        ∃ w, exec (.setQuota .venue (Burst.whole [a, share])) s = .next w ∧
          Passed (fun _ => (s.tenant t).quota ≠ share.toNat)
            ((afterFixed .venue .setQuota 2 .ok s).modTenant t fun r => { r with quota := share.toNat }) w)

/-- SUSPEND_TENANT and RESUME_TENANT: the refusals in their order; a suspension takes the tenant's moves from the queue,
returns its targets to its homes, ends its port's command, has a pass at every zone, and its close admits for the others; a
resumption has a pass at every zone. -/
def Obligations.SuspendAndResume : Prop :=
  ∀ (s : State) (a : Byte), Ready s .venue →
    (3 < a.toNat →
      exec (.suspendTenant .venue (Burst.whole [a])) s = .next (afterFixed .venue .suspendTenant 1 .range s) ∧
        exec (.resumeTenant .venue (Burst.whole [a])) s = .next (afterFixed .venue .resumeTenant 1 .range s)) ∧
    ∀ t : Tenant, a.toNat = t.val →
      ((s.tenant t).state ≠ .active →
        exec (.suspendTenant .venue (Burst.whole [a])) s = .next (afterFixed .venue .suspendTenant 1 .state s)) ∧
      ((s.tenant t).state ≠ .suspended →
        exec (.resumeTenant .venue (Burst.whole [a])) s = .next (afterFixed .venue .resumeTenant 1 .state s)) ∧
      ((s.tenant t).state = .active →
        ∃ v w, exec (.suspendTenant .venue (Burst.whole [a])) s = .next w ∧ Closed s v w ∧
          Passed (fun _ => True)
            { (afterFixed .venue .suspendTenant 1 .ok s).modPort (.tenant t) fun q =>
                if q.cmd = .idle then q else { q with cmd := .idle, result := .state } with
              tenants := tmod s.tenants t fun r => { r with state := .suspended }
              cells := (s.modColumn t fun c => { c with target := c.home }).cells
              moves := s.moves.filter fun m => m.tenant != t }
            v) ∧
      ((s.tenant t).state = .suspended →
        ∃ w, exec (.resumeTenant .venue (Burst.whole [a])) s = .next w ∧
          Passed (fun _ => True)
            ((afterFixed .venue .resumeTenant 1 .ok s).modTenant t fun r => { r with state := .active }) w)

/-- RETIRE_TENANT: the refusals in their order; else the record is VACANT, the column DARK, the reader gone, the port's
window whole, and every zone has a pass. The spreading settings and the census state that a VACANT record keeps are a
DESIGN CHOICE (log 19). -/
def Obligations.RetireTenant : Prop :=
  ∀ (s : State) (a : Byte), Ready s .venue →
    (3 < a.toNat →
      exec (.retireTenant .venue (Burst.whole [a])) s = .next (afterFixed .venue .retireTenant 1 .range s)) ∧
    ∀ t : Tenant, a.toNat = t.val →
      ((s.tenant t).state = .vacant →
        exec (.retireTenant .venue (Burst.whole [a])) s = .next (afterFixed .venue .retireTenant 1 .state s)) ∧
      ((s.tenant t).state ≠ .vacant →
        ∃ v w, exec (.retireTenant .venue (Burst.whole [a])) s = .next w ∧ Closed s v w ∧
          Passed (fun _ => True)
            { (afterFixed .venue .retireTenant 1 .ok s).modPort (.tenant t) fun q =>
                { q with
                  cmd := .idle
                  result := if q.cmd = .idle then q.result else .state
                  first := 0
                  last := 47
                  pointer := 0
                  log := false
                  movesIdle := false } with
              tenants := tset s.tenants t TenantRec.vacant
              cells := (s.modColumn t fun c =>
                { c with home := .dark, target := .dark, source := .tenant, alternates := [], holdOff := 0 }).cells
              moves := s.moves.filter fun m => m.tenant != t
              tenantReaders := tset s.tenantReaders t none }
            v)

/-- SET_LEVEL: a sector at or above the count is refused; else the level, held at 4095, and a pass at every zone that uses
the sector if the stored level changed. -/
def Obligations.SetLevel : Prop :=
  ∀ (s : State) (t : Tenant) (a hi lo : Byte), Ready s (.tenant t) → (s.tenant t).state = .active →
    ((s.tenant t).sectorCount ≤ a.toNat →
      exec (.setLevel (.tenant t) (Burst.whole [a, hi, lo])) s = .next (afterFixed (.tenant t) .setLevel 3 .range s)) ∧
    ∀ k : Sector, a.toNat = k.val → k.val < (s.tenant t).sectorCount →
      let uses := fun z => (s.cell z t).home = .sector k ∨
        ∃ m, moveAt s z t = some m ∧ m.state = .ramping ∧ (m.src = .sector k ∨ m.dst = .sector k)
      ∃ w, exec (.setLevel (.tenant t) (Burst.whole [a, hi, lo])) s = .next w ∧
        Passed (fun z => tget (s.tenant t).levels k ≠ min (be16 hi lo) 4095 ∧ uses z)
          ((afterFixed (.tenant t) .setLevel 3 (if 4095 < be16 hi lo then .clamped else .ok) s).modTenant t fun r =>
            { r with levels := tset r.levels k (min (be16 hi lo) 4095) })
          w

/-- CARRIER_LOST and CARRIER_BACK: the lock condition is taken; a changed presence entry of an admitted tenant's sector
below its count is stored and logged, with a pass at every zone that uses the sector; otherwise nothing else changes. -/
def Obligations.CarrierEvents : Prop :=
  ∀ (s : State) (t : Tenant) (k : Sector) (lock : Bool),
    let event : Instr := if lock then .carrierBack t k else .carrierLost t k
    let locked : State := { s with carrierLock := tmod s.carrierLock t fun row => tset row k lock }
    let counts : Prop :=
      s.starting = false ∧ (s.tenant t).state ≠ .vacant ∧ k.val < (s.tenant t).sectorCount ∧ tget (s.tenant t).presence k ≠ lock
    let uses := fun z => (s.cell z t).home = .sector k ∨
      ∃ m, moveAt s z t = some m ∧ m.state = .ramping ∧ (m.src = .sector k ∨ m.dst = .sector k)
    (¬ counts → exec event s = .next locked) ∧
    (counts → ∃ w, exec event s = .next w ∧
      Passed uses
        (appendLog
          { kind := if lock then .carrierBack else .carrierLost
            time := s.seconds
            vis := .tenant t
            tenant := some t
            sector := some k }
          (locked.modTenant t fun r => { r with presence := tset r.presence k lock }))
        w)

/-! ### Targets, alternates, limits, pins and the venue mode -/

/-- A change of target (R15, R16, R57 to R59). At a pinned zone the cell is unchanged. Out of service the home and the
target both take the value, and the source is recorded, with a pass if the home changed. In service a value that the target already holds has no
effect; any other value and its source are stored, and the retarget table decides what becomes of the cell's move, all
other moves keeping their places. That the source is recorded at a target set in outage, where R43 has the outage rule
leave it, and that it stays at an equal target in service, is DEDUCED (log 13 and 14). -/
def Obligations.TargetChange : Prop :=
  ∀ (s : State) (z : Zone) (t : Tenant) (d : Dest) (src : Origin),
    ((s.zone z).pinned = true → setTarget z t d src s = s) ∧
    ((s.zone z).pinned = false → inService s z = false →
      Passed (fun y => y = z ∧ (s.cell z t).home ≠ d) (s.modCell z t fun c => { c with home := d, target := d, source := src })
        (setTarget z t d src s)) ∧
    ((s.zone z).pinned = false → inService s z = true → (s.cell z t).target = d → setTarget z t d src s = s) ∧
    ((s.zone z).pinned = false → inService s z = true → (s.cell z t).target ≠ d →
      let cell : State := s.modCell z t fun c => { c with target := d, source := src }
      (moveAt s z t = none → setTarget z t d src s = cell) ∧
      ∀ m, moveAt s z t = some m →
        setTarget z t d src s =
          { cell with
            moves :=
              if m.state = .waiting then
                if d = m.src then s.moves.filter fun n => !(n.zone == z && n.tenant == t)
                else s.moves.map fun n =>
                  if n.zone == z && n.tenant == t then
                    (if d = m.dst then m else { m with dst := d, origin := src })
                  else n
              else s.moves.map fun n =>
                if n.zone == z && n.tenant == t then
                  (if m.dir = .forward ∧ d = m.src then { m with dir := .reverse, origin := src }
                    else if m.dir = .reverse ∧ d = m.dst then { m with dir := .forward, origin := src }
                    else m)
                else n })

/-- WRITE_TARGETS_ELEMENT: an octet that is neither DARK nor a sector below the count, and a pinned zone, are skipped; any
other element goes through the change of target and the close of the event. The pointer moves on in every case. -/
def Obligations.TargetElement : Prop :=
  ∀ (s : State) (t : Tenant) (b : Byte), Streaming s (.tenant t) .targets →
    let z := (s.port (.tenant t)).pointer
    let taken := (afterElement (.tenant t) 1 s).modPort (.tenant t) fun q => { q with pointer := nextPointer q }
    ((destOf (s.tenant t).sectorCount b = none ∨ (s.zone z).pinned = true) →
      exec (.writeTargetsElement (.tenant t) (Clocked.whole [b])) s = .next (setResult (.tenant t) .skipped taken)) ∧
    (∀ d, destOf (s.tenant t).sectorCount b = some d → (s.zone z).pinned = false →
      ∃ w, exec (.writeTargetsElement (.tenant t) (Clocked.whole [b])) s = .next w ∧
        Closed s (setTarget z t d .tenant taken) w)

/-- REQUEST_MOVE and CANCEL_MOVE: a zone or a destination out of range is refused, a pinned zone is skipped; else the
change of target, to the destination named or to the cell's home, and the close of the event. -/
def Obligations.RequestAndCancelMove : Prop :=
  ∀ (s : State) (t : Tenant) (a b : Byte), Ready s (.tenant t) → (s.tenant t).state = .active →
    ((47 < a.toNat ∨ destOf (s.tenant t).sectorCount b = none) →
      exec (.requestMove (.tenant t) (Burst.whole [a, b])) s = .next (afterFixed (.tenant t) .requestMove 2 .range s)) ∧
    (47 < a.toNat →
      exec (.cancelMove (.tenant t) (Burst.whole [a])) s = .next (afterFixed (.tenant t) .cancelMove 1 .range s)) ∧
    ∀ z : Zone, a.toNat = z.val →
      ((s.zone z).pinned = true →
        (destOf (s.tenant t).sectorCount b ≠ none →
          exec (.requestMove (.tenant t) (Burst.whole [a, b])) s =
            .next (afterFixed (.tenant t) .requestMove 2 .skipped s)) ∧
        exec (.cancelMove (.tenant t) (Burst.whole [a])) s =
          .next (afterFixed (.tenant t) .cancelMove 1 .skipped s)) ∧
      ((s.zone z).pinned = false →
        (∀ d, destOf (s.tenant t).sectorCount b = some d →
          ∃ w, exec (.requestMove (.tenant t) (Burst.whole [a, b])) s = .next w ∧
            Closed s (setTarget z t d .tenant (afterFixed (.tenant t) .requestMove 2 .ok s)) w) ∧
        ∃ w, exec (.cancelMove (.tenant t) (Burst.whole [a])) s = .next w ∧
          Closed s (setTarget z t (s.cell z t).home .tenant (afterFixed (.tenant t) .cancelMove 1 .ok s)) w)

/-- WRITE_ALTERNATES_ELEMENT: an element with an octet that is neither 15 nor a sector below the count is skipped as a
whole; else the list is the sectors named, in the order of the element, each repeat after the first dropped. The pointer
moves on. -/
def Obligations.AlternatesElement : Prop :=
  ∀ (s : State) (t : Tenant) (a b c : Byte), Streaming s (.tenant t) .alternates →
    let z := (s.port (.tenant t)).pointer
    let n := (s.tenant t).sectorCount
    let taken := (afterElement (.tenant t) 3 s).modPort (.tenant t) fun q => { q with pointer := nextPointer q }
    let named := [a, b, c].filterMap fun x => if h : x.toNat < 6 then some (⟨x.toNat, h⟩ : Sector) else none
    ((∃ x ∈ [a, b, c], x.toNat ≠ 15 ∧ (n ≤ x.toNat ∨ 5 < x.toNat)) →
      exec (.writeAlternatesElement (.tenant t) (Clocked.whole [a, b, c])) s =
        .next (setResult (.tenant t) .skipped taken)) ∧
    ((∀ x ∈ [a, b, c], x.toNat = 15 ∨ (x.toNat < n ∧ x.toNat ≤ 5)) →
      exec (.writeAlternatesElement (.tenant t) (Clocked.whole [a, b, c])) s =
        .next (taken.modCell z t fun cell =>
          { cell with alternates := named.foldl (fun ks k => if k ∈ ks then ks else ks ++ [k]) [] }))

/-- SET_LIMIT and WRITE_LIMITS_ELEMENT: the live limit is the value or the ceiling, whichever is lower, with a pass at the
zone if it changed, and the result is CLAMPED where the ceiling held the value. -/
def Obligations.Limits : Prop :=
  ∀ (s : State) (a hi lo : Byte),
    (Ready s .venue →
      (47 < a.toNat →
        exec (.setLimit .venue (Burst.whole [a, hi, lo])) s = .next (afterFixed .venue .setLimit 3 .range s)) ∧
      ∀ z : Zone, a.toNat = z.val →
        ∃ w, exec (.setLimit .venue (Burst.whole [a, hi, lo])) s = .next w ∧
          Passed (fun y => y = z ∧ (s.zone z).live ≠ min (be16 hi lo) (s.zone z).ceiling)
            ((afterFixed .venue .setLimit 3 (if (s.zone z).ceiling < be16 hi lo then .clamped else .ok) s).modZone z
              fun r => { r with live := min (be16 hi lo) r.ceiling })
            w) ∧
    (Streaming s .venue .limits →
      let z := (s.port .venue).pointer
      ∃ w, exec (.writeLimitsElement .venue (Clocked.whole [hi, lo])) s = .next w ∧
        Passed (fun y => y = z ∧ (s.zone z).live ≠ min (be16 hi lo) (s.zone z).ceiling)
          (((afterElement .venue 2 s).modPort .venue fun q =>
              { q with
                pointer := nextPointer q
                result := if (s.zone z).ceiling < be16 hi lo then .clamped else q.result }).modZone z
            fun r => { r with live := min (be16 hi lo) r.ceiling })
          w)

/-- PIN_ZONE and UNPIN_ZONE: a zone out of range is refused; a zone already pinned is left as it is; else the WAITING moves
of the zone leave, a cell with a RAMPING move takes its destination as its target and every other cell its home. -/
def Obligations.PinAndUnpin : Prop :=
  ∀ (s : State) (a : Byte), Ready s .venue →
    (47 < a.toNat →
      exec (.pinZone .venue (Burst.whole [a])) s = .next (afterFixed .venue .pinZone 1 .range s) ∧
      exec (.unpinZone .venue (Burst.whole [a])) s = .next (afterFixed .venue .unpinZone 1 .range s)) ∧
    ∀ z : Zone, a.toNat = z.val →
      ((s.zone z).pinned = true →
        exec (.pinZone .venue (Burst.whole [a])) s = .next (afterFixed .venue .pinZone 1 .ok s)) ∧
      ((s.zone z).pinned = false →
        ∃ w, exec (.pinZone .venue (Burst.whole [a])) s = .next w ∧
          Closed s
            { ((afterFixed .venue .pinZone 1 .ok s).modZoneCells z fun t c =>
                { c with
                  target := match moveAt s z t with
                    | none => c.home
                    | some m =>
                      if m.state = .waiting then c.home else if m.dir = .forward then m.dst else m.src }).modZone z
                  fun r => { r with pinned := true } with
              moves := s.moves.filter fun m => !(m.zone == z && m.state == MoveState.waiting) }
            w) ∧
      exec (.unpinZone .venue (Burst.whole [a])) s =
        .next ((afterFixed .venue .unpinZone 1 .ok s).modZone z fun r => { r with pinned := false })

/-- SET_VENUE_MODE and SET_STANDBY_CLASSES: a mode that is neither EVENT nor STANDBY is refused; else the mode, with the
wake count 0, or the standby-dark set, and a pass at every zone whose dimmed flag changes. -/
def Obligations.VenueMode : Prop :=
  ∀ (s : State) (b : Byte), Ready s .venue →
    (1 < b.toNat →
      exec (.setVenueMode .venue (Burst.whole [b])) s = .next (afterFixed .venue .setVenueMode 1 .range s)) ∧
    (∀ m, modeOf b = some m →
      ∃ w, exec (.setVenueMode .venue (Burst.whole [b])) s = .next w ∧
        Passed (fun z => dimmed s z ≠ dimmed { s with venueMode := m } z)
          { afterFixed .venue .setVenueMode 1 .ok s with venueMode := m, wakeCount := 0 } w) ∧
    ∃ w, exec (.setStandbyClasses .venue (Burst.whole [b])) s = .next w ∧
      Passed (fun z => dimmed s z ≠ dimmed { s with standbyDark := #v[b.getLsbD 0, b.getLsbD 1, b.getLsbD 2, b.getLsbD 3] } z)
        { afterFixed .venue .setStandbyClasses 1 .ok s with
          standbyDark := #v[b.getLsbD 0, b.getLsbD 1, b.getLsbD 2, b.getLsbD 3] } w

/-! ### Allotment -/

/-- The effective limit and the requests that a pass gives a zone: the limit is 0 out of service and while dimmed, and
else the live limit in 32nds of the smallest derate setting among the active alarm classes, or of 32 with none active; a
request is the level of the home, or the larger level of the two ends of a RAMPING move, and 0 for a tenant that is not
ACTIVE. -/
def Obligations.LimitAndRequest : Prop :=
  ∀ (s : State) (z : Zone),
    (SettingsBounded s →
      ((inService s z = false ∨ dimmed s z = true) → ((pass z s).zone z).effLimit = 0) ∧
      (inService s z = true → dimmed s z = false →
        ∃ d, ((pass z s).zone z).effLimit = (s.zone z).live * d / 32 ∧
          (∀ c, (alarmAt s z c).active = true → d ≤ tget s.derate (alarmIdx c)) ∧
          ((∃ c, (alarmAt s z c).active = true ∧ d = tget s.derate (alarmIdx c)) ∨
            (d = 32 ∧ ∀ c, (alarmAt s z c).active = false)))) ∧
    ∀ t : Tenant,
      ((s.tenant t).state ≠ .active → ((pass z s).cell z t).request = 0) ∧
      ((s.tenant t).state = .active →
        (∀ m, moveAt s z t = some m → m.state = .ramping →
          ((pass z s).cell z t).request = max (levelOf (s.tenant t) m.src) (levelOf (s.tenant t) m.dst)) ∧
        ((∀ m, moveAt s z t = some m → m.state = .waiting) →
          ((pass z s).cell z t).request = levelOf (s.tenant t) (s.cell z t).home)) ∧
      levelOf (s.tenant t) .dark = 0 ∧
      ∀ k, levelOf (s.tenant t) (.sector k) =
        if tget (s.tenant t).presence k = true then tget (s.tenant t).levels k else 0

/-- The grants and gains that a pass gives the cells of a zone, from its effective limit, their requests and the quota
shares: the three stages, the leftover in ascending tenant number, and the gain. -/
def Obligations.Grants : Prop :=
  ∀ (s : State) (z : Zone), QuotaBounded s →
    let limit := ((pass z s).zone z).effLimit
    let q := fun t => ((pass z s).cell z t).request
    let grant := fun t => ((pass z s).cell z t).grant
    let first := fun t => if admitted s t = true then min (q t) (limit * (s.tenant t).quota / 32) else 0
    let excess := fun t => if admitted s t = true then q t - first t else 0
    let r := limit - sumTenants first
    let add := fun t => r * excess t / sumTenants excess
    let u := r - sumTenants add
    sumTenants first ≤ limit ∧
    (∀ t, admitted s t = false → grant t = 0) ∧
    (sumTenants excess ≤ r → ∀ t, admitted s t = true → grant t = q t) ∧
    (r < sumTenants excess →
      (∀ t, admitted s t = true →
        grant t = first t + add t +
          if 0 < excess t ∧ (allTenants.countP fun v => decide (v < t ∧ 0 < excess v)) < u then 1 else 0) ∧
      (∀ t, grant t ≤ q t ∧ (0 < excess t → add t < excess t)) ∧
      u < (allTenants.countP fun v => decide (0 < excess v)) ∧
      sumTenants grant = limit) ∧
    ∀ t, ((pass z s).cell z t).gain = if q t = 0 then 0 else 256 * grant t / q t

/-- The three bounds on the results of the allotment and the headroom, wherever the results held are those that the inputs
give. -/
def Obligations.AllotmentBounds : Prop :=
  ∀ (s : State) (z : Zone), QuotaBounded s → LimitsBounded s → FreshAt s z →
    (sumTenants (fun t => (s.cell z t).grant) ≤ (s.zone z).effLimit ∧ (s.zone z).effLimit ≤ (s.zone z).live ∧
      (s.zone z).live ≤ (s.zone z).ceiling) ∧
    (∀ t, (s.cell z t).grant ≤ (s.cell z t).request ∧ (s.cell z t).gain ≤ 256) ∧
    (∀ t, (s.tenant t).state = .active →
      min (s.cell z t).request ((s.zone z).effLimit * (s.tenant t).quota / 32) ≤ (s.cell z t).grant) ∧
    ((s.zone z).effLimit = 0 → ∀ t, (s.cell z t).grant = 0 ∧ (s.cell z t).gain = 0) ∧
    ((inService s z = false ∨ dimmed s z = true) → ∀ t, (s.cell z t).grant = 0) ∧
    (∀ t, (s.tenant t).state ≠ .active → (s.cell z t).request = 0 ∧ (s.cell z t).grant = 0) ∧
    headroom s z = (s.zone z).effLimit - sumTenants (fun t => (s.cell z t).grant) ∧
    ((s.zone z).effLimit < sumTenants (fun t => (s.cell z t).request) → headroom s z = 0)

/-- A pass owes a SET exactly when it changes the effective limit of a bound zone. Queueing a SET gives a waiting SET
of the same position the new values in place; else the SET joins the tail of a queue of fewer than 4 frames, which an
idle transmitter starts to send; else the SET is owed. It carries the effective limit and the mute value as they
stand. Where a loss of lock has left two waiting SETs of one position, that both take the values is DEDUCED (log 31); where
it has left a waiting SET beside the mark of an owed one, that the mark stays is a DESIGN CHOICE (log 33). -/
def Obligations.OwedSets : Prop :=
  ∀ (s : State) (z : Zone),
    let w := pass z s
    (((s.zone z).binding = none ∨ (w.zone z).effLimit = (s.zone z).effLimit) → w.links = s.links ∧ w.remotes = s.remotes) ∧
    ∀ b, (s.zone z).binding = some b →
      ((w.zone z).effLimit ≠ (s.zone z).effLimit →
        Frame.set b.pos (w.zone z).effLimit ((s.remote z).state == .isolated) ∈ (w.link b.port).queue ∨
          (w.remote z).setOwed = true) ∧
      (let l := s.link b.port
      let sent := if l.sending = .queued then l.queue.take 1 else []
      let waits := if l.sending = .queued then l.queue.drop 1 else l.queue
      let new := Frame.set b.pos (s.zone z).effLimit ((s.remote z).state == .isolated)
      ((∃ limit mute, Frame.set b.pos limit mute ∈ waits) →
        queueSet z s = s.modLink b.port fun l =>
          { l with
            queue := sent ++ waits.map fun fr =>
              match fr with
              | .set p limit mute => if p = b.pos then new else .set p limit mute
              | .chainMute => .chainMute }) ∧
      ((∀ limit mute, Frame.set b.pos limit mute ∉ waits) → l.queue.length < 4 →
        queueSet z s =
          (s.modLink b.port fun l =>
            { l with
              queue := l.queue ++ [new]
              sending :=
                if s.starting = false ∧ l.locked = true ∧ l.sending = .nothing ∧ l.round = none then .queued
                else l.sending }).modRemote z fun r => { r with setOwed := false }) ∧
      ((∀ limit mute, Frame.set b.pos limit mute ∉ waits) → 4 ≤ l.queue.length →
        queueSet z s = s.modRemote z fun r => { r with setOwed := true }))

/-- The composite downlink of a zone and the uplink of a sector, which the model computes from the gains, the homes, the
moves and the weights (log 26). That it does so in start-up too, from the records held before the reset, is a DESIGN
CHOICE (log 35). -/
def Obligations.Composites : Prop :=
  ∀ (s : State) (z : Zone) (t : Tenant),
    let carrier := fun (d : Dest) (w : Nat) =>
      match d with
      | .dark => []
      | .sector k => if tget (s.tenant t).presence k = true then [Carrier.mk t k w (s.cell z t).gain] else []
    ((s.zone z).binding = none → composite s z = none) ∧
    (∀ b, (s.zone z).binding = some b →
      composite s z = some (b, carriers s z 0 ++ carriers s z 1 ++ carriers s z 2 ++ carriers s z 3)) ∧
    ((s.cell z t).gain = 0 → carriers s z t = []) ∧
    ((s.cell z t).gain ≠ 0 → (∀ m, moveAt s z t = some m → m.state = .waiting) →
      carriers s z t = carrier (s.cell z t).home 32) ∧
    ((s.cell z t).gain ≠ 0 → ∀ m, moveAt s z t = some m → m.state = .ramping →
      carriers s z t = carrier m.src (32 - m.weight) ++ carrier m.dst m.weight) ∧
    ∀ k, ((uplink s t k).isSome = true ↔ (s.tenant t).state = .active ∧ k.val < (s.tenant t).sectorCount) ∧
      ∀ l, uplink s t k = some l → ∀ n, (z, n) ∈ l ↔
        inService s z = true ∧
          (((∀ m, moveAt s z t = some m → m.state = .waiting) ∧ (s.cell z t).home = .sector k ∧ n = 32) ∨
            ∃ m, moveAt s z t = some m ∧ m.state = .ramping ∧
              ((m.src = .sector k ∧ n = 32 - m.weight) ∨ (m.dst = .sector k ∧ n = m.weight)))

/-! ### The Move Queue and the Ramp Engine -/

/-- Admission and ramp slots at the close of an event: nothing more can be admitted or started. The cell admitted next is
the lowest pending one of the first tenant in round-robin order that has one and room; its move joins the tail of the
queue, and the admission position becomes its tenant. Settling repeats this until nothing more can be admitted, and then
starts WAITING moves, each only when every older one has started, with the passes of their zones. -/
def Obligations.SettleComplete : Prop :=
  ∀ s : State, MoveQueueBounded s →
    NothingHeldBack (settle s) ∧
    (∃ n, SettledBy n s (settle s) ∧ nextAdmission (admitNext^[n] s) = none) ∧
    (nextAdmission s = none → admitNext s = s) ∧
    (∀ t z, nextAdmission s = some (t, z) →
      admitNext s =
        { s with
          moves := s.moves ++
            [{ tenant := t
               zone := z
               src := (s.cell z t).home
               dst := (s.cell z t).target
               weight := 0
               dir := .forward
               state := .waiting
               origin := (s.cell z t).source }]
          admitPos := t } ∧
      s.moves.length < 32 ∧ moveCount s t < 16 ∧ pendingCell s z t = true ∧ (∀ y, y < z → pendingCell s y t = false) ∧
        ∃ before after, [s.admitPos + 1, s.admitPos + 2, s.admitPos + 3, s.admitPos] = before ++ t :: after ∧
          ∀ v ∈ before, 16 ≤ moveCount s v ∨ ∀ y, pendingCell s y v = false) ∧
    ∀ (i j : Nat) (m n : Move), i < j → (settle s).moves[i]? = some m → (settle s).moves[j]? = some n →
      m.state = .waiting → n.state = .ramping → s.moves[j]? = some n

/-- RAMP_TIMER_EXPIRY: with the timer running, every RAMPING move advances by the step; those at their end leave, a FORWARD
one with its to sector as the home, each with a pass at its zone; then the event closes. The next expiry falls one
present tick later. That an expiry of a timer that does not run changes nothing is a DESIGN CHOICE (log 3); start-up stops
the timer (R159). -/
def Obligations.RampExpiry : Prop :=
  ∀ s : State, MoveQueueBounded s →
    (s.rampTimer.running = false → exec .rampTimerExpiry s = .next s) ∧
    (s.rampTimer.running = true →
      let advanced := s.moves.map fun m =>
        if m.state = .waiting then m
        else if m.dir = .forward then { m with weight := min (m.weight + s.rampStep) 32 }
        else { m with weight := m.weight - s.rampStep }
      let done := fun m : Move =>
        m.state == .ramping && ((m.dir == .forward && m.weight == 32) || (m.dir == .reverse && m.weight == 0))
      ∃ v w, exec .rampTimerExpiry s = .next w ∧ Closed s v w ∧
        Passed (fun z => ∃ m ∈ advanced, done m = true ∧ m.zone = z)
          { s with
            rampTimer := ⟨true, s.rampTick⟩
            moves := advanced.filter fun m => !done m
            cells := tmapIdx (fun z row => tmapIdx (fun t (c : Cell) =>
              match advanced.find? fun m => done m && m.dir == .forward && m.zone == z && m.tenant == t with
              | some m => { c with home := m.dst }
              | none => c) row) s.cells }
          v)

/-! ### Scenes -/

/-- STORE_SCENE, CLEAR_SCENE and WRITE_SCENE_ELEMENT: a slot above 3 is refused; a slot stored holds the 48 targets; a
slot cleared is EMPTY; an element in range is written at the pointer's zone, into a slot of KEEP where it was EMPTY, and
any other is skipped; the pointer moves on. -/
def Obligations.SceneSlots : Prop :=
  ∀ (s : State) (t : Tenant) (b : Byte),
    (Ready s (.tenant t) → (s.tenant t).state = .active →
      (3 < b.toNat →
        exec (.storeScene (.tenant t) (Burst.whole [b])) s = .next (afterFixed (.tenant t) .storeScene 1 .range s) ∧
        exec (.clearScene (.tenant t) (Burst.whole [b])) s = .next (afterFixed (.tenant t) .clearScene 1 .range s)) ∧
      ∀ k : Slot, b.toNat = k.val →
        exec (.storeScene (.tenant t) (Burst.whole [b])) s =
          .next ((afterFixed (.tenant t) .storeScene 1 .ok s).modTenant t fun r =>
            { r with scenes := tset r.scenes k (some (Vector.ofFn fun z => .dest (s.cell z t).target)) }) ∧
        exec (.clearScene (.tenant t) (Burst.whole [b])) s =
          .next ((afterFixed (.tenant t) .clearScene 1 .ok s).modTenant t fun r =>
            { r with scenes := tset r.scenes k none })) ∧
    ∀ k : Slot, Streaming s (.tenant t) (.scene k) →
      let z := (s.port (.tenant t)).pointer
      let taken := (afterElement (.tenant t) 1 s).modPort (.tenant t) fun q => { q with pointer := nextPointer q }
      (sceneEntryOf (s.tenant t).sectorCount b = none →
        exec (.writeSceneElement (.tenant t) (Clocked.whole [b])) s = .next (setResult (.tenant t) .skipped taken)) ∧
      ∀ e, sceneEntryOf (s.tenant t).sectorCount b = some e →
        exec (.writeSceneElement (.tenant t) (Clocked.whole [b])) s =
          .next (taken.modTenant t fun r =>
            { r with
              scenes := tset r.scenes k
                (some (tset ((tget r.scenes k).getD (Vector.replicate 48 .keep)) z e)) })

/-- RECALL_SCENE: a slot above 3 and an EMPTY slot are refused; else KEEP entries and pinned zones are passed over, the
result telling of a pinned one, and every other entry goes through the change of target in ascending zone order, with the
tenant's hold-off setting and the source SCENE where it changes the target; then the event closes. That the source is
SCENE also at a zone in outage, where R43 has the outage rule leave it, is DEDUCED (log 13); that the hold-off is set also
where a proposal had set it, which R94 has a recall leave, is a DESIGN CHOICE (log 36). -/
def Obligations.RecallScene : Prop :=
  ∀ (s : State) (t : Tenant) (b : Byte), Ready s (.tenant t) → (s.tenant t).state = .active →
    (3 < b.toNat →
      exec (.recallScene (.tenant t) (Burst.whole [b])) s = .next (afterFixed (.tenant t) .recallScene 1 .range s)) ∧
    ∀ k : Slot, b.toNat = k.val →
      (tget (s.tenant t).scenes k = none →
        exec (.recallScene (.tenant t) (Burst.whole [b])) s = .next (afterFixed (.tenant t) .recallScene 1 .state s)) ∧
      ∀ scene, tget (s.tenant t).scenes k = some scene →
        let result : Result := if ∃ z, tget scene z ≠ .keep ∧ (s.zone z).pinned = true then .skipped else .ok
        let v := allZones.foldl
          (fun a z =>
            match tget scene z with
            | .keep => a
            | .dest d =>
              if (s.zone z).pinned = true then a
              else if (s.cell z t).target = d then a
              else (setTarget z t d .scene a).modCell z t fun c => { c with holdOff := (s.tenant t).spreading.holdOff })
          (afterFixed (.tenant t) .recallScene 1 result s)
        ∃ w, exec (.recallScene (.tenant t) (Burst.whole [b])) s = .next w ∧ Closed s v w ∧
          (∀ z d, tget scene z = .dest d → (s.zone z).pinned = false →
            (w.cell z t).target = d ∧
            ((w.cell z t).home = if inService s z = true ∨ (s.cell z t).target = d then (s.cell z t).home else d) ∧
            ((w.cell z t).source = if (s.cell z t).target = d then (s.cell z t).source else .scene) ∧
            ((w.cell z t).holdOff =
              if (s.cell z t).target = d then (s.cell z t).holdOff else (s.tenant t).spreading.holdOff)) ∧
          ∀ z u, (u ≠ t ∨ tget scene z = .keep ∨ (s.zone z).pinned = true) →
            (w.cell z u).target = (s.cell z u).target ∧ (w.cell z u).home = (s.cell z u).home ∧
              (w.cell z u).source = (s.cell z u).source ∧ (w.cell z u).holdOff = (s.cell z u).holdOff

/-! ### Settings -/

/-- SET_SPREADING: a high water above 12240, or a low water not below it, is refused; else the settings are replaced
whole, the debounce held within 1 to 15 and the long count at 4 or above. -/
def Obligations.SetSpreading : Prop :=
  ∀ (s : State) (t : Tenant) (flags h1 h0 l1 l0 debounce long hold : Byte), Ready s (.tenant t) →
    (s.tenant t).state = .active →
    let run := exec (.setSpreading (.tenant t) (Burst.whole [flags, h1, h0, l1, l0, debounce, long, hold])) s
    ((12240 < be16 h1 h0 ∨ be16 h1 h0 ≤ be16 l1 l0) → run = .next (afterFixed (.tenant t) .setSpreading 8 .range s)) ∧
    (be16 h1 h0 ≤ 12240 → be16 l1 l0 < be16 h1 h0 →
      run = .next ((afterFixed (.tenant t) .setSpreading 8
          (if debounce.toNat = 0 ∨ 15 < debounce.toNat ∨ long.toNat < 4 then .clamped else .ok) s).modTenant t fun r =>
        { r with
          spreading :=
            { enable := flags.getLsbD 0
              repeats := flags.getLsbD 1
              high := be16 h1 h0
              low := be16 l1 l0
              debounce := max 1 (min debounce.toNat 15)
              longCount := max 4 long.toNat
              holdOff := hold.toNat } }))

/-- SET_CENSUS, SET_RAMP, SET_SUPERVISION, SET_ESCALATION and SET_WAKE: each value is stored, held within its range, and
the result is CLAMPED where one was. WRITE_WEIGHTS_ELEMENT: the octet is the entry's weight, and the next entry follows,
wrapping after entry 15. -/
def Obligations.Settings : Prop :=
  (∀ (s : State) (a b c d : Byte), Ready s .venue →
    exec (.setCensus .venue (Burst.whole [a])) s =
      .next { afterFixed .venue .setCensus 1 (if a.toNat = 0 then .clamped else .ok) s with
        censusInterval := max 1 a.toNat } ∧
    exec (.setRamp .venue (Burst.whole [a, b])) s =
      .next { afterFixed .venue .setRamp 2
          (if a.toNat = 0 ∨ b.toNat = 0 ∨ 32 < b.toNat then .clamped else .ok) s with
        rampTick := max 1 a.toNat, rampStep := max 1 (min b.toNat 32) } ∧
    exec (.setSupervision .venue (Burst.whole [a, b, c, d])) s =
      .next { afterFixed .venue .setSupervision 4
          (if a.toNat < 5 ∨ b.toNat < 2 ∨ 15 < b.toNat ∨ c.toNat = 0 ∨ 7 < c.toNat ∨ d.toNat = 0 ∨ 8 < d.toNat
            then .clamped else .ok) s with
        pollInterval := max 5 a.toNat
        lossThreshold := max 2 (min b.toNat 15)
        recoveryCount := max 1 (min c.toNat 7)
        alarmDebounce := max 1 (min d.toNat 8) } ∧
    (3 < a.toNat →
      exec (.setEscalation .venue (Burst.whole [a, b])) s = .next (afterFixed .venue .setEscalation 2 .range s)) ∧
    (∀ i : Fin 4, a.toNat = i.val →
      exec (.setEscalation .venue (Burst.whole [a, b])) s =
        .next { afterFixed .venue .setEscalation 2 .ok s with escalation := tset s.escalation i b.toNat }) ∧
    exec (.setWake .venue (Burst.whole [a, b, c])) s =
      .next { afterFixed .venue .setWake 3 (if c.toNat = 0 ∨ 15 < c.toNat then .clamped else .ok) s with
        wakeThreshold := be16 a b, wakeDebounce := max 1 (min c.toNat 15), wakeCount := 0 }) ∧
  ∀ (s : State) (i : Fin 16) (b : Byte), Streaming s .venue (.weights i) →
    exec (.writeWeightsElement .venue (Clocked.whole [b])) s =
      .next { (afterElement .venue 1 s).modPort .venue fun q => { q with cmd := .streaming (.weights (i + 1)) [] } with
        weights := tset s.weights i b.toNat }

/-- SET_DERATE: a class above 3 is refused; else the derate, held at 32, with a pass at every zone whose remote has the
class active if the setting changed. -/
def Obligations.SetDerate : Prop :=
  ∀ (s : State) (a b : Byte), Ready s .venue →
    (3 < a.toNat →
      exec (.setDerate .venue (Burst.whole [a, b])) s = .next (afterFixed .venue .setDerate 2 .range s)) ∧
    ∀ i : Fin 4, a.toNat = i.val →
      ∃ w, exec (.setDerate .venue (Burst.whole [a, b])) s = .next w ∧
        Passed (fun z => tget s.derate i ≠ min b.toNat 32 ∧ (tget (s.remote z).alarms i).active = true)
          { afterFixed .venue .setDerate 2 (if 32 < b.toNat then .clamped else .ok) s with
            derate := tset s.derate i (min b.toNat 32) }
          w

/-! ### The census -/

/-- The overload states of a sector at a census, and the SECTOR_SATURATED entry that a census calls for. The balancer: a
cell is chosen for a sector whenever an eligible cell has an alternate that qualifies; it is the one of greatest occupancy,
and of the lowest number among equals, and its destination the first of its alternates that qualifies. The sector's turn
then makes it the cell's target with source BALANCER, sets the hold-off and the last proposal, and moves the occupancy
between the working loads, which start equal to the measured loads. -/
def Obligations.CensusRules : Prop :=
  ((∀ (v : Spreading) (load : Nat), 1 ≤ v.debounce →
      (load < v.high → nextOverload v load .calm = .calm ∧ ∀ k, nextOverload v load (.rising k) = .calm) ∧
      (v.high ≤ load →
        nextOverload v load .calm = (if v.debounce ≤ 1 then .overloaded 0 else .rising 1) ∧
        ∀ k, nextOverload v load (.rising k) = if v.debounce ≤ k + 1 then .overloaded 0 else .rising (k + 1)) ∧
      (v.low ≤ load →
        (∀ n, nextOverload v load (.overloaded n) = .overloaded (min (n + 1) 65535)) ∧
        ∀ k n, nextOverload v load (.falling k n) = .overloaded n) ∧
      (load < v.low →
        (∀ n, nextOverload v load (.overloaded n) = if v.debounce ≤ 1 then .calm else .falling 1 n) ∧
        ∀ k n, nextOverload v load (.falling k n) = if v.debounce ≤ k + 1 then .calm else .falling (k + 1) n)) ∧
    ∀ (v : Spreading) (before after : Overload) (m : Nat),
      saturated v before after = some m ↔
        after = .overloaded m ∧ (∃ n, before = .overloaded n ∧ n < m) ∧
          (m = v.longCount ∨ (v.repeats = true ∧ m % v.longCount = 0))) ∧
  (∀ (s : State) (t : Tenant) (work : Vector Nat 6) (k : Sector),
      (∀ z a, winner s t work k = some (z, a) →
        eligible s t k z = true ∧ ((s.cell z t).alternates.find? (qualifies s t work z)) = some a ∧
          ∀ y, eligible s t k y = true →
            ((s.cell z t).occupancy < (s.cell y t).occupancy ∨
              ((s.cell y t).occupancy = (s.cell z t).occupancy ∧ y < z)) →
            ((s.cell y t).alternates.find? (qualifies s t work y)) = none) ∧
      (winner s t work k = none →
        ∀ y, eligible s t k y = true → ((s.cell y t).alternates.find? (qualifies s t work y)) = none) ∧
      ((k.val < (s.tenant t).sectorCount ∧ isOverloaded s t k = true) →
        ∀ z a, winner s t work k = some (z, a) →
          balanceSector t (s, work) k =
            (((setTarget z t (.sector a) .balancer s).modCell z t fun c =>
                { c with holdOff := (s.tenant t).spreading.holdOff }).modTenant t fun r =>
              { r with census := tmod r.census k fun c => { c with proposal := some (z, a) } },
              tmod (tmod work k fun n => n - (s.cell z t).occupancy) a fun n => n + (s.cell z t).occupancy)) ∧
      ((¬ (k.val < (s.tenant t).sectorCount ∧ isOverloaded s t k = true) ∨ winner s t work k = none) →
        balanceSector t (s, work) k = (s, work)) ∧
      balance t s =
        if (s.tenant t).spreading.enable = true then
          (([0, 1, 2, 3, 4, 5] : List Sector).foldl (balanceSector t) (s, tmapIdx (fun _ c => c.load) (s.tenant t).census)).1
        else s)

/-- CENSUS_TIMER_EXPIRY: with the timer running, every sector of an ACTIVE tenant below its count takes the load measured
at the expiry and the overload state that follows from it, and every other census state stays; a load is the sum of the
occupancy of the cells counted toward the sector, none of them with a DARK home. Each ACTIVE tenant's proposals are those
its own census makes: the last proposal of a measured sector names the cell of the sector whose target has changed, and is
none where none has. Every hold-off of an admitted tenant above 0 falls by 1, also one that a proposal has just set. In
STANDBY the wake count follows the wake total, and at the wake debounce the mode becomes EVENT, with a pass at every zone
that stops being dimmed. The SECTOR_SATURATED entries are appended in ascending order, and then VENUE_WAKE; then the event
closes. The next expiry falls one present interval later. That an expiry of a timer that does not run changes nothing is a
DESIGN CHOICE (log 3); start-up stops the timer (R159). That a count past the debounce wakes too is a DESIGN CHOICE
(log 21). -/
def Obligations.CensusExpiry : Prop :=
  ∀ s : State,
    (s.censusTimer.running = false → exec .censusTimerExpiry s = .next s) ∧
    (∀ t k, sectorLoad s t k = ((allZones.filter fun z =>
        (s.cell z t).home != .dark &&
          match moveAt s z t with
          | some m => (if m.state = .ramping ∧ 16 ≤ m.weight then m.dst else (s.cell z t).home) == .sector k
          | none => (s.cell z t).home == .sector k).map fun z => (s.cell z t).occupancy).sum) ∧
    (s.censusTimer.running = true →
      let measured := fun (t : Tenant) (k : Sector) => (s.tenant t).state = .active ∧ k.val < (s.tenant t).sectorCount
      let state := fun (t : Tenant) (k : Sector) =>
        nextOverload (s.tenant t).spreading (sectorLoad s t k) (tget (s.tenant t).census k).overload
      let entry := fun (t : Tenant) (k : Sector) (n : Nat) =>
        ({ kind := .sectorSaturated, time := s.seconds, vis := .tenant t, tenant := some t, sector := some k, count := some n }
          : Entry)
      let entries := allTenants.flatMap fun t => allSectors.filterMap fun k =>
        if (s.tenant t).state = .active ∧ k.val < (s.tenant t).sectorCount then
          (saturated (s.tenant t).spreading (tget (s.tenant t).census k).overload (state t k)).map (entry t k)
        else none
      let count := if s.wakeThreshold = 0 then 0 else if s.wakeThreshold ≤ wakeTotal s then s.wakeCount + 1 else 0
      let wake : Bool := s.venueMode == .standby && s.wakeThreshold != 0 && decide (s.wakeDebounce ≤ count)
      ∃ b v w : State, exec .censusTimerExpiry s = .next w ∧
        b = { s with censusTimer := ⟨true, s.censusInterval⟩, tenants := b.tenants, cells := b.cells } ∧
        (∀ t, b.tenant t = { s.tenant t with census := (b.tenant t).census }) ∧
        (∀ t k, measured t k →
          (tget (b.tenant t).census k).load = sectorLoad s t k ∧ (tget (b.tenant t).census k).overload = state t k) ∧
        (∀ t k, ¬ measured t k → tget (b.tenant t).census k = tget (s.tenant t).census k) ∧
        (∀ z t, b.cell z t =
          { s.cell z t with
            target := (b.cell z t).target
            source := (b.cell z t).source
            holdOff := (b.cell z t).holdOff }) ∧
        (∀ t, (s.tenant t).state = .active →
          (b.tenant t).census = ((censusTenant t s).tenant t).census ∧
            ∀ z, (b.cell z t).target = ((censusTenant t s).cell z t).target ∧
              (b.cell z t).source = ((censusTenant t s).cell z t).source ∧
              (b.cell z t).holdOff = ((censusTenant t s).cell z t).holdOff - 1) ∧
        (∀ t k, measured t k →
          (∀ z a, (tget (b.tenant t).census k).proposal = some (z, a) →
            (s.tenant t).spreading.enable = true ∧ (∃ n, state t k = .overloaded n) ∧ a ≠ k ∧
              (s.cell z t).home = .sector k ∧ (s.cell z t).target = .sector k ∧ (b.cell z t).target = .sector a ∧
              (b.cell z t).source = .balancer) ∧
          ((tget (b.tenant t).census k).proposal = none →
            ∀ z, (s.cell z t).home = .sector k → (b.cell z t).target = (s.cell z t).target)) ∧
        (∀ t z, (s.tenant t).state ≠ .active →
          (b.cell z t).target = (s.cell z t).target ∧ (b.cell z t).source = (s.cell z t).source ∧
            (b.cell z t).holdOff =
              if (s.tenant t).state = .suspended then (s.cell z t).holdOff - 1 else (s.cell z t).holdOff) ∧
        (wake = true →
          Passed (fun z => dimmed s z ≠ dimmed { s with venueMode := .event } z)
            { b with venueMode := .event, wakeCount := 0 } v) ∧
        (wake = false → v = { b with wakeCount := if s.venueMode = .event then s.wakeCount else count }) ∧
        Closed s
          ((entries ++ if wake = true then [({ kind := .venueWake, time := s.seconds, vis := .all } : Entry)] else []).foldl
            (fun a e => appendLog e a) v)
          w)

/-! ### Poll rounds and links -/

/-- POLL_TIMER_EXPIRY and POLL_SENT: at the expiry a round starts at the lowest bound position of every port that has
one and no round in progress, behind a queued frame being sent; on a HUNTING port its window opens at once. At the
last octet of a POLL its reply window opens; the POLL has gone out with its start pattern as framing characters and every
other octet as data. That start-up drops the expiry is a DESIGN CHOICE (log 8), and so is the record of what was sent
(log 12). That a frame ahead of a round's first POLL is taken as its gap is DEDUCED (log 17). -/
def Obligations.PollRound : Prop :=
  ∀ s : State,
    (∀ f, (∀ p, p ∈ boundPositions s f ↔ ∃ z, (s.zone z).binding = some ⟨f, p⟩) ∧
      (boundPositions s f).Pairwise fun p q => p < q) ∧
    ((s.starting = true ∨ s.pollTimer.running = false) → exec .pollTimerExpiry s = .next s) ∧
    (s.starting = false → s.pollTimer.running = true →
      exec .pollTimerExpiry s = .next
        { s with
          pollTimer := ⟨true, s.pollInterval⟩
          links := tmapIdx
            (fun f l =>
              match l.round, boundPositions s f with
              | none, pos :: _ =>
                { l with
                  sending := if l.locked = false then .nothing else if l.sending = .queued then .queued else .poll
                  round := some
                    { pos := pos
                      phase := if l.locked = false then .window false else if l.sending = .queued then .gap 1 else .poll
                      results := [] } }
              | _, _ => l)
            s.links }) ∧
    ∀ f pos results, s.starting = false → (s.link f).sending = .poll → (s.link f).round = some ⟨pos, .poll, results⟩ →
      exec (.pollSent f) s = .next (s.modLink f fun l =>
        { l with
          sending := .nothing
          round := some ⟨pos, .window true, results⟩
          lineOut := [.framing 0xC3, .framing 0x5A] ++
            ([5, octet (pos.val + 1), 0x01] ++ octets16 (crc16 [octet (pos.val + 1), 0x01]).toNat).map .data })

/-- REPLY_TIMER_EXPIRY: with a window open, the window closes as a miss for its position: the miss goes to the zone bound
there, or is discarded, and the round goes on. Otherwise nothing changes. That a position below the one chosen at the
close, bound only in the gap, waits for the next round is a DESIGN CHOICE (log 30). -/
def Obligations.ReplyTimer : Prop :=
  ∀ (s : State) (f : FPort), BindingsDistinct s →
    ((s.starting = true ∨ ∀ pos a results, (s.link f).round ≠ some ⟨pos, .window a, results⟩) →
      exec (.replyTimerExpiry f) s = .next s) ∧
    ∀ pos a results, s.starting = false → (s.link f).round = some ⟨pos, .window a, results⟩ →
      ∃ w, exec (.replyTimerExpiry f) s = .next w ∧
        (∀ z, (s.zone z).binding = some ⟨f, pos⟩ → RoundGoesOn s f pos (results ++ [(pos, false)]) (handleMiss z s) w) ∧
        ((∀ z, (s.zone z).binding ≠ some ⟨f, pos⟩) → RoundGoesOn s f pos (results ++ [(pos, false)]) s w)

/-- FRAME_RECEIVED: a whole frame on a LOCKED port. A STATUS with a right CRC and length from the polled position closes
the window that its POLL opened, as a reply for the zone bound there; a frame that fails a check, is of another kind, or
finds no such window leaves only the receiver SEEKING. START_PATTERN begins a frame and BAD_LENGTH ends one; a framing
character alone is passed over; and a HUNTING port takes nothing. That a window opened without a POLL takes no reply also
after a loss of lock is DEDUCED (log 15). That a position below the one chosen at a close, bound only in the gap, waits for
the next round is a DESIGN CHOICE (log 30). -/
def Obligations.Reception : Prop :=
  (∀ (s : State) (f : FPort) (os : List Byte), BindingsDistinct s → s.starting = false → (s.link f).locked = true →
    os.length = (os.headD 0).toNat → 5 ≤ os.length → os.length ≤ 64 →
    let chars := [LineChar.framing 0xC3, LineChar.framing 0x5A] ++ os.map LineChar.data
    let passed := s.modLink f fun l => { l with rx := .seeking, afterC3 := false }
    let crc := crc16 ((os.drop 1).take (os.length - 3))
    let good := fun (pos : Pos) =>
      be16 (os.getD (os.length - 2) 0) (os.getD (os.length - 1) 0) = crc.toNat ∧
        (os.getD 1 0).toNat = pos.val + 1 ∧ os.getD 2 0 = 0x81 ∧ os.length = 14
    (∀ pos results, (s.link f).round = some ⟨pos, .window true, results⟩ → good pos →
      ∃ w, exec (.frameReceived f chars) s = .next w ∧
        (∀ z, (s.zone z).binding = some ⟨f, pos⟩ →
          RoundGoesOn s f pos (results ++ [(pos, true)]) (handleReply z (statusFields os) passed) w) ∧
        ((∀ z, (s.zone z).binding ≠ some ⟨f, pos⟩) → RoundGoesOn s f pos (results ++ [(pos, true)]) passed w)) ∧
    ((∀ pos results, (s.link f).round = some ⟨pos, .window true, results⟩ → ¬ good pos) →
      exec (.frameReceived f chars) s = .next passed)) ∧
  (∀ n a k flags temp o1 o0 l1 l0 mute c01 c23 x y : Byte,
    let st := statusFields [n, a, k, flags, temp, o1, o0, l1, l0, mute, c01, c23, x, y]
    st.flags = flags ∧ st.temp = temp ∧ st.output = be16 o1 o0 ∧ st.applied = be16 l1 l0 ∧ st.mute = mute ∧
      (tget st.codes 0).val = c01.toNat / 16 ∧ (tget st.codes 1).val = c01.toNat % 16 ∧
      (tget st.codes 2).val = c23.toNat / 16 ∧ (tget st.codes 3).val = c23.toNat % 16) ∧
  ∀ (s : State) (f : FPort),
    ((s.starting = true ∨ (s.link f).locked = false) →
      (∀ chars, exec (.frameReceived f chars) s = .next s) ∧ exec (.startPattern f) s = .next s ∧
        ∀ n, exec (.badLength f n) s = .next s) ∧
    (s.starting = false → (s.link f).locked = true →
      exec (.startPattern f) s = .next (s.modLink f fun l => { l with rx := .collecting [], afterC3 := false }) ∧
      (∀ n : Byte, (n.toNat < 5 ∨ 64 < n.toNat) → (s.link f).rx = .collecting [] →
        exec (.badLength f n) s = .next (s.modLink f fun l => { l with rx := .seeking, afterC3 := false })) ∧
      (∀ n : Byte, (s.link f).rx = .seeking →
        exec (.frameReceived f [.data n]) s = .next (s.modLink f fun l => { l with afterC3 := false })) ∧
      ∀ b : Byte, ((s.link f).afterC3 = false ∨ b ≠ 0x5A) →
        exec (.frameReceived f [.framing b]) s = .next (s.modLink f fun l => { l with afterC3 := b == 0xC3 }))

/-- FRAME_TRANSMITTED: the frame leaves the head of the queue, the values of a SET become the last-sent values of the zone
bound at its position, the owed SET of the lowest position enters, and the transmitter goes on with the gap or the queue.
It has gone out with its start pattern as framing characters and every other octet as data; the record of what was sent is
a DESIGN CHOICE (log 12). A gap that ends is followed by the turn of the position chosen at the close; where its binding
has been removed in the gap, by the turn of the lowest bound position above it, or with none by the round end, which is a
DESIGN CHOICE (log 16). That a lower position bound in the gap waits for the next round is one too (log 30). -/
def Obligations.FrameTransmitted : Prop :=
  ∀ (s : State) (f : FPort), BindingsDistinct s →
    (∀ z, lowestOwed s f = some z ↔
      (s.remote z).setOwed = true ∧ ∃ p, (s.zone z).binding = some ⟨f, p⟩ ∧
        ∀ y q, (s.zone y).binding = some ⟨f, q⟩ → q < p → (s.remote y).setOwed = false) ∧
    ∀ fr rest, s.starting = false → (s.link f).sending = .queued → (s.link f).queue = fr :: rest →
      let chars := fun (body : List Byte) (n : Byte) =>
        [LineChar.framing 0xC3, LineChar.framing 0x5A] ++ (n :: body ++ octets16 (crc16 body).toNat).map LineChar.data
      let sent := s.modLink f fun l =>
        { l with
          queue := rest
          sending := .nothing
          lineOut := match fr with
            | .set pos limit mute =>
              chars [octet (pos.val + 1), 0x02, octet (limit / 256), octet limit, if mute = true then 1 else 0] 8
            | .chainMute => chars [0x0F, 0x03] 5 }
      ∃ reported,
        (fr = .chainMute → reported = sent) ∧
        (∀ pos limit mute, fr = .set pos limit mute →
          (∀ z, (s.zone z).binding = some ⟨f, pos⟩ →
            reported = sent.modRemote z fun r => { r with sentLimit := limit, sentMute := mute }) ∧
          ((∀ z, (s.zone z).binding ≠ some ⟨f, pos⟩) → reported = sent)) ∧
        let filled := match lowestOwed s f with
          | some z => queueSet z reported
          | none => reported
        ((∀ pos n results, (s.link f).round ≠ some ⟨pos, .gap n, results⟩) →
          exec (.frameTransmitted f) s = .next (startQueued f filled)) ∧
        ∀ pos n results, (s.link f).round = some ⟨pos, .gap n, results⟩ →
          (1 < n → (s.link f).locked = true →
            exec (.frameTransmitted f) s = .next (filled.modLink f fun l =>
              { l with sending := .queued, round := some ⟨pos, .gap (n - 1), results⟩ })) ∧
          ((n ≤ 1 ∨ (s.link f).locked = false) →
            (∀ p ∈ boundPositions s f, pos ≤ p → (∀ q ∈ boundPositions s f, pos ≤ q → p ≤ q) →
              exec (.frameTransmitted f) s = .next (filled.modLink f fun l =>
                { l with
                  sending := if l.locked = false then .nothing else .poll
                  round := some ⟨p, if l.locked = false then .window false else .poll, results⟩ })) ∧
            ((∀ p ∈ boundPositions s f, p < pos) →
              exec (.frameTransmitted f) s =
                .next (startQueued f ((roundEnd f results filled).modLink f fun l => { l with round := none }))))

/-- LOSS_OF_LOCK and RETURN_OF_LOCK: on a port that changes its link state, the frame being collected and the transmission
in progress are abandoned at a loss, a POLL in progress gives way to the position's window, and a gap ends, with the turn of
its position and no POLL; at a return the receiver is SEEKING and the queue goes on. Otherwise only the lock condition is
taken. That a window open at a loss cannot close as a reply, and that a frame ahead of a round's first POLL is taken as its
gap, is DEDUCED (log 15 and 17). That a gap whose position has lost its binding is followed by the turn of the lowest bound
position above it, or with none by the round end, is a DESIGN CHOICE (log 16). -/
def Obligations.LinkLock : Prop :=
  ∀ (s : State) (f : FPort),
    ((s.starting = true ∨ (s.link f).locked = false) →
      exec (.lossOfLock f) s = .next (s.modLink f fun l => { l with lockCond := false })) ∧
    (s.starting = false → (s.link f).locked = true →
      let cut := fun (round : Option Round) => s.modLink f fun l =>
        { l with lockCond := false, locked := false, rx := .seeking, afterC3 := false, sending := .nothing, round := round }
      ((∀ pos n results, (s.link f).round ≠ some ⟨pos, .gap n, results⟩) →
        exec (.lossOfLock f) s = .next (cut ((s.link f).round.map fun r => { r with phase := .window false }))) ∧
      ∀ pos n results, (s.link f).round = some ⟨pos, .gap n, results⟩ →
        (∀ p ∈ boundPositions s f, pos ≤ p → (∀ q ∈ boundPositions s f, pos ≤ q → p ≤ q) →
          exec (.lossOfLock f) s = .next (cut (some ⟨p, .window false, results⟩))) ∧
        ((∀ p ∈ boundPositions s f, p < pos) →
          exec (.lossOfLock f) s =
            .next ((roundEnd f results (cut (s.link f).round)).modLink f fun l => { l with round := none }))) ∧
    ((s.starting = true ∨ (s.link f).locked = true) →
      exec (.returnOfLock f) s = .next (s.modLink f fun l => { l with lockCond := true })) ∧
    (s.starting = false → (s.link f).locked = false →
      exec (.returnOfLock f) s = .next (s.modLink f fun l =>
        { l with
          lockCond := true
          locked := true
          rx := .seeking
          afterC3 := false
          sending := if l.sending = .nothing ∧ l.round = none ∧ l.queue ≠ [] then .queued else l.sending }))

/-! ### Remote supervision -/

/-- A miss: the counts, REMOTE_SILENT once in a SEARCHING episode, LOST at the loss threshold with the outage rule and a
pass, and unreachable while ISOLATED. -/
def Obligations.Miss : Prop :=
  ∀ (s : State) (z : Zone),
    let counted := s.modRemote z fun r => { r with goodCount := 0, missCount := min (r.missCount + 1) 15 }
    let reached := s.lossThreshold ≤ min ((s.remote z).missCount + 1) 15
    ((s.remote z).state = .searching →
      (reached ∧ (s.remote z).silentReported = false →
        handleMiss z s =
          appendLog { kind := .remoteSilent, time := s.seconds, vis := .venue, zone := some z }
            (counted.modRemote z fun r => { r with silentReported := true })) ∧
      (¬ (reached ∧ (s.remote z).silentReported = false) → handleMiss z s = counted)) ∧
    (((s.remote z).state = .alive ∨ (s.remote z).state = .degraded) →
      (¬ reached → handleMiss z s = counted) ∧
      (reached →
        Passed (fun y => y = z)
          { counted.modRemote z fun r =>
              { r with
                state := .lost
                alarms := tmapIdx (fun _ a => { a with onset := 0, clearing := 0 }) r.alarms
                overdrive := 0
                lostThisRound := true } with
            cells := (s.modZoneCells z fun _ c => { c with home := c.target, occupancy := 0 }).cells
            moves := s.moves.filter fun m => m.zone != z }
          (handleMiss z s))) ∧
    (((s.remote z).state = .lost ∨ (s.remote z).state = .unbound) → handleMiss z s = counted) ∧
    ((s.remote z).state = .isolated → handleMiss z s = counted.modRemote z fun r => { r with unreachable := true })

/-- The steps of a reply in their order; step 1, the counts and values; step 5, the entry to service of a SEARCHING or LOST
remote and the state that the alarm set gives a remote in service; step 6, the occupancy. -/
def Obligations.ReplyService : Prop :=
  ∀ (s : State) (z : Zone) (st : Status),
    handleReply z st s =
      replyEcho z st (replyOccupancy z st (replyService z (replyEscalation z
        (replyAlarm z st .uplinkHot (replyAlarm z st .supply (replyAlarm z st .mismatch (replyAlarm z st .heat
          (replyOverdrive z st (replyCounts z st s))))))))) ∧
    replyCounts z st s = (s.modRemote z fun r =>
      { r with
        missCount := 0
        goodCount := min (r.goodCount + 1) 7
        lastTemp := st.temp
        lastOutput := st.output
        lastApplied := st.applied
        lastMute := st.mute
        unreachable := if r.state = .isolated then false else r.unreachable }) ∧
    (let state : RemoteState :=
      if (([.heat, .mismatch, .supply, .uplinkHot] : List AlarmClass).any fun c => (alarmAt s z c).active) = true then .degraded
      else .alive
    (((s.remote z).state = .searching ∨ (s.remote z).state = .lost) →
      ((s.remote z).goodCount < s.recoveryCount → replyService z s = s) ∧
      (s.recoveryCount ≤ (s.remote z).goodCount →
        ∃ v,
          Results (fun y => y = z)
            (s.modRemote z fun r =>
              { r with
                state := state
                overdrive := 0
                behindBreak := if r.state = .lost then false else r.behindBreak })
            v ∧
          replyService z s =
            if (s.remote z).state = .lost then
              appendLog { kind := .remoteBack, time := s.seconds, vis := .all, zone := some z } (queueSet z v)
            else queueSet z v)) ∧
    (((s.remote z).state = .alive ∨ (s.remote z).state = .degraded) →
      ((s.remote z).state = state → replyService z s = s) ∧
      ((s.remote z).state ≠ state →
        Passed (fun y => y = z) (s.modRemote z fun r => { r with state := state }) (replyService z s)))) ∧
    (((s.remote z).state = .isolated ∨ (s.remote z).state = .unbound) → replyService z s = s) ∧
    (inService s z = true →
      replyOccupancy z st s =
        s.modZoneCells z fun t c => { c with occupancy := tget s.weights (tget st.codes t) }) ∧
    (inService s z = false → replyOccupancy z st s = s)

/-- The two steps of a reply that isolate: the overdrive check of a remote in service, against the effective limit and its
margin, and the escalation of a remote that is not ISOLATED. -/
def Obligations.ReplyIsolates : Prop :=
  ∀ (s : State) (z : Zone) (st : Status),
    (let eff := (s.zone z).effLimit
    let same := st.applied = (s.remote z).sentLimit ∧ (s.remote z).sentLimit = eff
    let counted := fun n => s.modRemote z fun r => { r with overdrive := n }
    (inService s z = false → replyOverdrive z st s = s) ∧
    (inService s z = true →
      (¬ same → replyOverdrive z st s = s) ∧
      (same → st.output ≤ eff + eff / 8 + 8 → replyOverdrive z st s = counted 0) ∧
      (same → eff + eff / 8 + 8 < st.output →
        ((s.remote z).overdrive ≠ 2 →
          replyOverdrive z st s = counted (min ((s.remote z).overdrive + 1) 3)) ∧
        ((s.remote z).overdrive = 2 →
          ∃ v, EntersIsolated z .overdrive (counted 3) v ∧
            replyOverdrive z st s =
              appendLog { kind := .overdrive, time := s.seconds, vis := .all, zone := some z } v)))) ∧
    (let raised := s.modRemote z fun r =>
      { r with
        alarms := tmapIdx (fun _ a => if a.active then { a with escalation := min (a.escalation + 1) 255 } else a) r.alarms }
    let qualifies := fun c =>
      (alarmAt raised z c).active = true ∧ tget s.escalation (alarmIdx c) ≠ 0 ∧
        tget s.escalation (alarmIdx c) ≤ (alarmAt raised z c).escalation
    ((s.remote z).state = .isolated → replyEscalation z s = s) ∧
    ((s.remote z).state ≠ .isolated →
      ((∀ c, ¬ qualifies c) → replyEscalation z s = raised) ∧
      ∀ c, qualifies c → (∀ d, alarmIdx d < alarmIdx c → ¬ qualifies d) →
        ∃ v, EntersIsolated z (.escalation c) raised v ∧
          replyEscalation z s =
            appendLog { kind := .autoIsolated, time := s.seconds, vis := .all, zone := some z, alarm := some c } v))

/-- The alarm handling of one class at a reply, with its pass and its entry at an onset and at a clearing; and echo
convergence, which queues a SET where the echoed values differ from the last-sent ones and none waits or is owed. -/
def Obligations.AlarmsAndEcho : Prop :=
  ∀ (s : State) (z : Zone) (st : Status),
    (∀ c,
      let a := alarmAt s z c
      let put := fun (a : AlarmRec) => s.modRemote z fun r => { r with alarms := tset r.alarms (alarmIdx c) a }
      let flag := st.flags.getLsbD (alarmIdx c).val
      (a.active = false → flag = true → a.onset + 1 < s.alarmDebounce →
        replyAlarm z st c s = put { a with onset := min (a.onset + 1) 8 }) ∧
      (a.active = false → flag = true → s.alarmDebounce ≤ a.onset + 1 →
        ∃ v, Passed (fun y => y = z) (put { a with active := true, onset := 0 }) v ∧
          replyAlarm z st c s =
            appendLog { kind := .alarmOn, time := s.seconds, vis := .venue, zone := some z, alarm := some c } v) ∧
      (a.active = false → flag = false → replyAlarm z st c s = put { a with onset := 0 }) ∧
      (a.active = true → flag = false → a.clearing + 1 < s.alarmDebounce →
        replyAlarm z st c s = put { a with clearing := min (a.clearing + 1) 8 }) ∧
      (a.active = true → flag = false → s.alarmDebounce ≤ a.clearing + 1 →
        ∃ v, Passed (fun y => y = z) (put { a with active := false, clearing := 0, escalation := 0 }) v ∧
          replyAlarm z st c s =
            appendLog { kind := .alarmOff, time := s.seconds, vis := .venue, zone := some z, alarm := some c } v) ∧
      (a.active = true → flag = true → replyAlarm z st c s = put { a with clearing := 0 })) ∧
    ((s.remote z).state ≠ .alive → (s.remote z).state ≠ .degraded → (s.remote z).state ≠ .isolated →
      replyEcho z st s = s) ∧
    (((s.remote z).state = .alive ∨ (s.remote z).state = .degraded ∨ (s.remote z).state = .isolated) →
      ∀ b, (s.zone z).binding = some b →
        let l := s.link b.port
        let waits := if l.sending = .queued then l.queue.drop 1 else l.queue
        let differs := st.applied ≠ (s.remote z).sentLimit ∨ st.mute ≠ if (s.remote z).sentMute = true then 1 else 0
        let quiet := (s.remote z).setOwed = false ∧ ∀ limit mute, Frame.set b.pos limit mute ∉ waits
        (differs ∧ quiet → replyEcho z st s = queueSet z s) ∧ (¬ (differs ∧ quiet) → replyEcho z st s = s))

/-- A round end: the group of the round gives no entry, PORT_DOWN, CHAIN_BREAK with the behind break mark, or one
REMOTE_LOST for each member; then REMOTE_LOST for each record that entered LOST in the round and has left it, in ascending
position order (DESIGN CHOICE, log 22); and lost this round is cleared. -/
def Obligations.RoundEnd : Prop :=
  ∀ (s : State) (f : FPort) (results : List (Pos × Bool)), BindingsDistinct s →
    let bound := boundPositions s f
    let atPos := fun (p : Pos) (q : RemoteRec → Prop) => ∃ z, (s.zone z).binding = some ⟨f, p⟩ ∧ q (s.remote z)
    let lost := fun p => atPos p fun r => r.state = .lost
    let group := lossGroup s f
    let tail := fun k => k ∈ bound ∧ (∀ p ∈ bound, k ≤ p → lost p) ∧ ∀ j ∈ bound, j < k → ∃ p ∈ bound, j ≤ p ∧ ¬ lost p
    let answered := fun k => ∃ q ∈ bound, q < k ∧ (∀ p ∈ bound, p < k → p ≤ q) ∧ (q, true) ∈ results
    let breaks := fun k => tail k ∧ (∀ p ∈ group, k ≤ p) ∧ answered k
    let lostEntries := fun (ps : List Pos) =>
      (ps.filterMap (zoneAt s f)).map fun z =>
        ({ kind := .remoteLost, time := s.seconds, vis := .all, zone := some z } : Entry)
    let log := fun (es : List Entry) (x : State) => es.foldl (fun a e => appendLog e a) x
    (∀ p, p ∈ group ↔ atPos p fun r => r.lostThisRound = true ∧ r.state = .lost) ∧
    group.Pairwise (fun p q => p < q) ∧
    (∀ p z, zoneAt s f p = some z ↔ (s.zone z).binding = some ⟨f, p⟩) ∧
    (group = [] → groupEntries f results s = s) ∧
    (group ≠ [] → (∀ p ∈ bound, lost p) →
      groupEntries f results s =
        log [{ kind := .portDown, time := s.seconds, vis := .all, port := some f, count := some bound.length }] s) ∧
    (∀ k, group ≠ [] → ¬ (∀ p ∈ bound, lost p) → breaks k →
      groupEntries f results s =
        { log [{ kind := .chainBreak, time := s.seconds, vis := .all, port := some f, pos := some k,
                 count := some (bound.countP fun p => decide (k ≤ p)) }] s with
          remotes := tmapIdx
            (fun z r => if ∃ p ∈ group, (s.zone z).binding = some ⟨f, p⟩ then { r with behindBreak := true } else r)
            s.remotes }) ∧
    (group ≠ [] → ¬ (∀ p ∈ bound, lost p) → (∀ k, ¬ breaks k) →
      groupEntries f results s = log (lostEntries group) s) ∧
    ∃ left : List Pos,
      (∀ p, p ∈ left ↔ atPos p fun r => r.lostThisRound = true ∧ r.state ≠ .lost) ∧ left.Pairwise (fun p q => p < q) ∧
      roundEnd f results s =
        { log (lostEntries left) (groupEntries f results s) with
          remotes := tmapIdx
            (fun z r => if (s.zone z).binding.map Binding.port = some f then { r with lostThisRound := false } else r)
            (groupEntries f results s).remotes }

/-- ISOLATE_REMOTE and RESTORE_REMOTE: a zone out of range, an UNBOUND or ISOLATED remote, and a remote that is not
ISOLATED are refused; else the remote enters ISOLATED with cause VENUE and the event closes, or it is SEARCHING again, its
alarm set and last-sent values kept, with a pass at its zone. -/
def Obligations.IsolateAndRestore : Prop :=
  ∀ (s : State) (a : Byte), Ready s .venue →
    (47 < a.toNat →
      exec (.isolateRemote .venue (Burst.whole [a])) s = .next (afterFixed .venue .isolateRemote 1 .range s) ∧
        exec (.restoreRemote .venue (Burst.whole [a])) s = .next (afterFixed .venue .restoreRemote 1 .range s)) ∧
    ∀ z : Zone, a.toNat = z.val →
      (((s.remote z).state = .unbound ∨ (s.remote z).state = .isolated) →
        exec (.isolateRemote .venue (Burst.whole [a])) s = .next (afterFixed .venue .isolateRemote 1 .state s)) ∧
      ((s.remote z).state ≠ .unbound → (s.remote z).state ≠ .isolated →
        ∃ v w, exec (.isolateRemote .venue (Burst.whole [a])) s = .next w ∧ Closed s v w ∧
          EntersIsolated z .venue (afterFixed .venue .isolateRemote 1 .ok s) v) ∧
      ((s.remote z).state ≠ .isolated →
        exec (.restoreRemote .venue (Burst.whole [a])) s = .next (afterFixed .venue .restoreRemote 1 .state s)) ∧
      ((s.remote z).state = .isolated →
        ∃ w, exec (.restoreRemote .venue (Burst.whole [a])) s = .next w ∧
          Passed (fun y => y = z)
            ((afterFixed .venue .restoreRemote 1 .ok s).modRemote z fun r =>
              { r with
                state := .searching
                cause := none
                missCount := 0
                goodCount := 0
                alarms := tmapIdx (fun _ a => { a with onset := 0, clearing := 0 }) r.alarms
                unreachable := false
                silentReported := false })
            w)

/-! ### The Fault Log and the seconds counter -/

/-- An append: the entry at the tail, the oldest entry of a full log discarded first, every cursor and lost count as the
discard leaves them, the LOG reason of every reader evaluated, and nothing else changed. ONE_SECOND_TIMER_EXPIRY: the
seconds counter rises by 1 and wraps. -/
def Obligations.LogAppend : Prop :=
  (∀ (e : Entry) (s : State), s.log.length ≤ 64 →
    let w := appendLog e s
    w.log = (if s.log.length < 64 then s.log else s.log.drop 1) ++ [e] ∧ outsideLog w = outsideLog s ∧
    (∀ p, s.reader p = none → w.reader p = none ∧ (w.port p).log = false) ∧
    ∀ p r, s.reader p = some r →
      ∃ n, w.reader p = some n ∧
        (s.log.length < 64 → n = r) ∧
        (s.log.length = 64 → 0 < r.cursor → n = { r with cursor := r.cursor - 1 }) ∧
        (s.log.length = 64 → r.cursor = 0 → ∀ oldest, s.log.head? = some oldest →
          n = { r with lost := if visibleTo p oldest = true then min (r.lost + 1) 255 else r.lost }) ∧
        (w.port p).log = (decide (0 < n.lost) || (w.log.drop n.cursor).any (visibleTo p))) ∧
  ∀ s : State,
    exec .oneSecondTimerExpiry s = .next { s with seconds := s.seconds + 1 } ∧
      (s.seconds.toNat < 4294967295 → (s.seconds + 1).toNat = s.seconds.toNat + 1) ∧
      (s.seconds.toNat = 4294967295 → s.seconds + 1 = 0)

/-! ### The Limit Store, resets and start-up -/

/-- WRITE_STORE_PAGE and LOCK_STORE_PAGE: the checks in their order, and the operation that an accepted command begins. -/
def Obligations.StoreCommands : Prop :=
  ∀ (s : State) (a : Byte) (records : Vector Byte 32), Ready s .venue →
    let write := exec (.writeStorePage .venue (Burst.whole (a :: records.toList))) s
    let lock := exec (.lockStorePage .venue (Burst.whole [a])) s
    let wrote := fun r => afterFixed .venue .writeStorePage 33 r s
    let locked := fun r => afterFixed .venue .lockStorePage 1 r s
    let valid := fun (pg : Page) => pg.integrity = crc16 pg.octets.toList
    let isLocked := fun (pg : Page) => valid pg ∧ tget pg.octets 32 = 0x5A
    (5 < a.toNat → write = .next (wrote .range) ∧ lock = .next (locked .range)) ∧
    ∀ p : PageNo, a.toNat = p.val →
      (s.storeOp.isSome = true → write = .next (wrote .busy) ∧ lock = .next (locked .busy)) ∧
      (s.storeOp = none →
        (isLocked (tget s.pages p) → write = .next (wrote .rights) ∧ lock = .next (locked .rights)) ∧
        (¬ isLocked (tget s.pages p) →
          (¬ valid (tget s.pages p) → lock = .next (locked .state)) ∧
          (valid (tget s.pages p) → lock = .next { locked .ok with storeOp := some (.lock p) }) ∧
          (recordsAcceptable s p records.toList = false → write = .next (wrote .range)) ∧
          (recordsAcceptable s p records.toList = true →
            write = .next { wrote .ok with storeOp := some (.write p records) }))) ∧
      (recordsAcceptable s p records.toList = true ↔
        ∃ rs : Vector StoreRecord 8,
          (∀ i : Fin 8,
            let octet := fun (j : Nat) => records.toList.getD (4 * i.val + j) 0
            (tget rs i).ceiling = be16 (octet 0) (octet 1) ∧ (tget rs i).ceiling ≤ 16383 ∧
              (octet 2).toNat = (classIdx (tget rs i).cls).val ∧
              match (tget rs i).binding with
              | none => octet 3 = 0xFF
              | some b => (octet 3).toNat = 16 * b.port.val + b.pos.val + 1) ∧
          (∀ i j b, (tget rs i).binding = some b → (tget rs j).binding = some b → i = j) ∧
          ∀ i z b, (tget rs i).binding = some b → z.val / 8 ≠ p.val → (s.zone z).binding ≠ some b)

/-- STORE_WRITE_COMPLETION and STORE_LOCK_COMPLETION: the page takes its octets with a matching integrity word, the
operation ends and port V gains STORE_DONE. After a write, outside start-up, the zones of the page take their new copies, a
zone whose binding changed has its remote removed, made to appear, or both, with the outage rule where it was in service,
and every zone whose limits, class or binding changed has a pass; then the event closes. That a completion without its
operation in progress changes nothing is a DESIGN CHOICE (log 3), and that a completion during start-up changes only the
store is one too (log 10). -/
def Obligations.StoreCompletions : Prop :=
  ∀ s : State,
    let done := fun (p : PageNo) (octets : Vector Byte 33) =>
      { s with pages := tset s.pages p ⟨octets, crc16 octets.toList⟩, storeOp := none }.modPort .venue fun q =>
        { q with storeDone := true }
    ((∀ p records, s.storeOp ≠ some (.write p records)) → exec .storeWriteCompletion s = .next s) ∧
    ((∀ p, s.storeOp ≠ some (.lock p)) → exec .storeLockCompletion s = .next s) ∧
    (∀ p, s.storeOp = some (.lock p) →
      exec .storeLockCompletion s = .next (done p (tset (tget s.pages p).octets 32 0x5A))) ∧
    ∀ p records, s.storeOp = some (.write p records) →
      let octets : Vector Byte 33 := Vector.ofFn fun i => if h : i.val < 32 then tget records ⟨i.val, h⟩ else 0x00
      (s.starting = true → exec .storeWriteCompletion s = .next (done p octets)) ∧
      (s.starting = false →
        ∀ rs, recordsOf records.toList = some rs →
          let zones := tmapIdx
            (fun z r =>
              match (if z.val / 8 = p.val then rs[z.val % 8]? else none) with
              | some x => { r with cls := x.cls, ceiling := x.ceiling, binding := x.binding, live := min r.live x.ceiling }
              | none => r)
            s.zones
          let rebound := fun (z : Zone) => (s.zone z).binding != (tget zones z).binding
          let outage := fun (z : Zone) => rebound z && inService s z
          ∃ v w, exec .storeWriteCompletion s = .next w ∧ Closed s v w ∧
            Passed
              (fun z =>
                (s.zone z).ceiling ≠ (tget zones z).ceiling ∨ (s.zone z).live ≠ (tget zones z).live ∨
                  (s.zone z).cls ≠ (tget zones z).cls ∨ rebound z = true)
              { done p octets with
                zones := zones
                remotes := tmapIdx
                  (fun z r =>
                    if rebound z = true then
                      { RemoteRec.unbound with state := if (tget zones z).binding = none then .unbound else .searching }
                    else r)
                  s.remotes
                cells := tmapIdx
                  (fun z row => tmapIdx
                    (fun _ (c : Cell) => if outage z = true then { c with home := c.target, occupancy := 0 } else c) row)
                  s.cells
                moves := s.moves.filter fun m => !outage m.zone }
              v)

/-- SOFT_RESET and HARDWARE_RESET: start-up begins, every command on the five ports ends, and the ramp, census and
poll timers stop; the octets after the code of SOFT_RESET are discarded. A hardware reset empties the log, returns the seconds counter to 0, and stops a store operation,
each octet of whose page holds its old value or its new one and whose integrity word does not match. That nothing else
changes before the end of start-up is a DESIGN CHOICE (log 8), and so is the record of what data out has presented, which a
reset leaves (log 12); the octets of that page are free values (log 9). -/
def Obligations.Resets : Prop :=
  ∀ s : State,
    let stopped := fun (x : State) =>
      { x with
        starting := true
        ports := tmapIdx (fun _ q => { q with cmd := .idle, assembly := [] }) x.ports
        rampTimer := ⟨false, x.rampTimer.due⟩
        censusTimer := ⟨false, x.censusTimer.due⟩
        pollTimer := ⟨false, x.pollTimer.due⟩ }
    (Ready s .venue → ∀ os : List Byte,
      exec (.softReset .venue (Burst.whole os)) s = .next (stopped (portAfter .venue 0x4F .ok .idle os.length s))) ∧
    ∃ pages n,
      exec .hardwareReset s =
        .next (stopped
          { s with
            ports := tmapIdx (fun _ q => { q with log := false }) s.ports
            log := []
            seconds := 0
            venueReader := ⟨0, 0⟩
            tenantReaders := Vector.replicate 4 none
            pages := pages
            storeOp := none
            freeCount := n }) ∧
      (s.storeOp = none → pages = s.pages ∧ n = s.freeCount) ∧
      ∀ p (new : Vector Byte 33),
        ((∃ records, s.storeOp = some (.write p records) ∧
            ∀ i, tget new i = if h : i.val < 32 then tget records ⟨i.val, h⟩ else 0x00) ∨
          (s.storeOp = some (.lock p) ∧ new = tset (tget s.pages p).octets 32 0x5A)) →
        n = s.freeCount + 1 ∧ (∀ q, q ≠ p → tget pages q = tget s.pages q) ∧
          (∀ i, tget (tget pages p).octets i = tget (tget s.pages p).octets i ∨
            tget (tget pages p).octets i = tget new i) ∧
          (tget pages p).integrity ≠ crc16 (tget pages p).octets.toList

/-- START_UP: with a reset before it and no store operation running, every record is at its start-up value; the zones take
the records of the pages that load, in order: valid, in range, and no binding equal to another of the page or to one loaded
from a lower page; every other page is treated as INVALID and gets an entry. No tenant port has LOG, and port V has it where
an entry stands at or after its cursor or its lost count is above 0. What no rule gives a value is as log 7, 8, 19 (the
records of the VACANT tenants) and 27 name it. -/
def Obligations.StartUp : Prop :=
  ∀ s : State,
    ((s.starting = false ∨ s.storeOp.isSome = true) → exec .startUp s = .next s) ∧
    (s.starting = true → s.storeOp = none →
      ∃ (w : State) (loads : PageNo → Bool),
        let records := fun p => recordsOf ((tget s.pages p).octets.toList.take 32)
        exec .startUp s = .next w ∧
        (∀ p, loads p = true ↔
          (tget s.pages p).integrity = crc16 (tget s.pages p).octets.toList ∧
            ∃ rs, records p = some rs ∧ (rs.filterMap StoreRecord.binding).Nodup ∧
              ∀ q, q < p → loads q = true → ∀ rs', records q = some rs' →
                ∀ b ∈ rs.filterMap StoreRecord.binding, b ∉ rs'.filterMap StoreRecord.binding) ∧
        (∀ z, loads (pageOfZone z) = false → w.zone z = ⟨.service, 0, none, 0, false, 0⟩) ∧
        (∀ z rs r, loads (pageOfZone z) = true → records (pageOfZone z) = some rs → rs[z.val % 8]? = some r →
          w.zone z = ⟨r.cls, r.ceiling, r.binding, r.ceiling, false, 0⟩) ∧
        (∀ z, w.remote z =
          { RemoteRec.unbound with state := if (w.zone z).binding = none then .unbound else .searching }) ∧
        (∀ f, w.link f =
          { lockCond := (s.link f).lockCond
            locked := (s.link f).lockCond
            rx := .seeking
            afterC3 := false
            queue := [.chainMute]
            sending := if (s.link f).lockCond = true then .queued else .nothing
            round := none
            lineOut := [] }) ∧
        w.log =
          (((allPages.filter fun p => !loads p).map (Entry.pageInvalid s.seconds)).foldl (fun a e => appendLog e a) s).log ∧
        w.venueReader =
          (((allPages.filter fun p => !loads p).map (Entry.pageInvalid s.seconds)).foldl
            (fun a e => appendLog e a) s).venueReader ∧
        (∀ t, tget w.tenantReaders t = none ∧ (w.port (.tenant t)).log = false) ∧
        ((w.port .venue).log = true ↔ 0 < w.venueReader.lost ∨ w.venueReader.cursor < w.log.length) ∧
        outsideLog w =
          outsideLog
            { State.reset with
              ports := tmapIdx (fun _ q => { PortRec.atStartUp with selectLow := q.selectLow }) s.ports
              carrierLock := s.carrierLock
              zones := w.zones
              links := w.links
              remotes := w.remotes
              seconds := s.seconds
              pages := s.pages
              freeCount := s.freeCount
              pending := s.pending })

/-! ### The laws that every step keeps -/

/-- The bounds of the log and its readers, of the transmit queues, of the quota shares, of the limits and of the settings;
no two zones are bound to the same port and position, which the records of a page write in progress keep so; and the LOG
reason of every port stands as its reader and the log give it (the attention line follows it, FixedReplies). -/
def Obligations.StepKeepsBounds : Prop :=
  ∀ s t : State, step s = .next t →
    (LogBounded s → LogBounded t) ∧ (QueuesBounded s → QueuesBounded t) ∧ (QuotaBounded s → QuotaBounded t) ∧
      (LimitsBounded s → LimitsBounded t) ∧ (SettingsBounded s → SettingsBounded t) ∧
      (BindingsDistinct s → BindingsDistinct t) ∧ (LogReasonsSound s → LogReasonsSound t)

/-- The bounds of the Move Queue and its slots, and no move or pending cell is held back that could go on. -/
def Obligations.StepKeepsQueue : Prop :=
  ∀ s t : State, MoveQueueBounded s → step s = .next t →
    MoveQueueBounded t ∧ (NothingHeldBack s → NothingHeldBack t)

/-- The plan stays sound: every move leaves its cell's home, waits at weight 0 and belongs to an ACTIVE tenant; a pinned
zone and a tenant that is not ACTIVE have no pending cell; and in outage every cell stands at its target with no move. -/
def Obligations.StepKeepsPlan : Prop :=
  ∀ s t : State, MoveQueueBounded s → OutageSettled s → PlanSound s → step s = .next t → OutageSettled t ∧ PlanSound t

/-- The results held for every zone are always those that its inputs give. -/
def Obligations.StepKeepsAllotment : Prop :=
  ∀ s t : State, MoveQueueBounded s → AllotmentFresh s → step s = .next t → AllotmentFresh t

end
end

