-- ==== Sys2Proof/Laws/State.lean ====
section
/-! SUPPORT. One lemma for each field under each update of the state, and the reads of a record after its own update. -/

namespace Sys2Proof

/-! ### Tables -/

@[simp] theorem tget_tset_same {α : Type} {n : Nat} (v : Vector α n) (i : Fin n) (x : α) : tget (tset v i x) i = x := by
  simp [tget, tset]

theorem tget_tset_ne {α : Type} {n : Nat} (v : Vector α n) (i j : Fin n) (x : α) (h : i ≠ j) :
    tget (tset v i x) j = tget v j := by
  have : i.val ≠ j.val := fun e => h (Fin.ext e)
  simp [tget, tset, this]

theorem tget_tset {α : Type} {n : Nat} (v : Vector α n) (i j : Fin n) (x : α) :
    tget (tset v i x) j = if i = j then x else tget v j := by
  split
  · next h => subst h; simp
  · next h => exact tget_tset_ne v i j x h

@[simp] theorem tget_tmod_same {α : Type} {n : Nat} (v : Vector α n) (i : Fin n) (f : α → α) :
    tget (tmod v i f) i = f (tget v i) := by simp [tmod]

theorem tget_tmod_ne {α : Type} {n : Nat} (v : Vector α n) (i j : Fin n) (f : α → α) (h : i ≠ j) :
    tget (tmod v i f) j = tget v j := tget_tset_ne v i j _ h

theorem tget_tmod {α : Type} {n : Nat} (v : Vector α n) (i j : Fin n) (f : α → α) :
    tget (tmod v i f) j = if i = j then f (tget v j) else tget v j := by
  rw [tmod, tget_tset]
  split
  · next h => rw [h]
  · rfl

@[simp] theorem tget_tmapIdx {α β : Type} {n : Nat} (f : Fin n → α → β) (v : Vector α n) (i : Fin n) :
    tget (tmapIdx f v) i = f i (tget v i) := by simp [tget, tmapIdx]

@[simp] theorem tget_replicate {α : Type} {n : Nat} (x : α) (i : Fin n) : tget (Vector.replicate n x) i = x := by
  simp [tget]

@[simp] theorem tget_ofFn {α : Type} {n : Nat} (f : Fin n → α) (i : Fin n) : tget (Vector.ofFn f) i = f i := by
  simp [tget]

/-- Two tables are equal when they agree at every index. -/
theorem table_ext {α : Type} {n : Nat} (v w : Vector α n) (h : ∀ i, tget v i = tget w i) : v = w := by
  apply Vector.ext
  intro i hi
  exact h ⟨i, hi⟩

@[simp] theorem tset_tset {α : Type} {n : Nat} (v : Vector α n) (i : Fin n) (x y : α) :
    tset (tset v i x) i y = tset v i y := by
  apply table_ext
  intro j
  simp only [tget_tset]
  split <;> rfl

@[simp] theorem tmod_tmod {α : Type} {n : Nat} (v : Vector α n) (i : Fin n) (f g : α → α) :
    tmod (tmod v i f) i g = tmod v i fun x => g (f x) := by
  simp [tmod]

@[simp] theorem tset_tget {α : Type} {n : Nat} (v : Vector α n) (i : Fin n) : tset v i (tget v i) = v := by
  apply table_ext
  intro j
  rw [tget_tset]
  split
  · next h => rw [h]
  · rfl

end Sys2Proof

namespace Sys2Proof.Machine

/-! ### A record after its own update -/

theorem portIdx_inj {p q : Port} (h : portIdx p = portIdx q) : p = q := by
  cases p with
  | venue =>
    cases q with
    | venue => rfl
    | tenant u => exact absurd (congrArg Fin.val h) (by simp [portIdx]; omega)
  | tenant t =>
    cases q with
    | venue => exact absurd (congrArg Fin.val h) (by simp [portIdx]; omega)
    | tenant u => exact congrArg Port.tenant (Fin.ext (by simpa [portIdx] using congrArg Fin.val h))

@[simp] theorem State.port_modPort_same (s : State) (p : Port) (f : PortRec → PortRec) :
    (s.modPort p f).port p = f (s.port p) := by simp [State.port, State.modPort]

theorem State.port_modPort_ne (s : State) (p q : Port) (f : PortRec → PortRec) (h : p ≠ q) :
    (s.modPort p f).port q = s.port q := tget_tmod_ne _ _ _ _ fun e => h (portIdx_inj e)

@[simp] theorem State.tenant_modTenant_same (s : State) (t : Tenant) (f : TenantRec → TenantRec) :
    (s.modTenant t f).tenant t = f (s.tenant t) := by simp [State.tenant, State.modTenant]

theorem State.tenant_modTenant_ne (s : State) (t u : Tenant) (f : TenantRec → TenantRec) (h : t ≠ u) :
    (s.modTenant t f).tenant u = s.tenant u := tget_tmod_ne _ _ _ _ h

@[simp] theorem State.zone_modZone_same (s : State) (z : Zone) (f : ZoneRec → ZoneRec) :
    (s.modZone z f).zone z = f (s.zone z) := by simp [State.zone, State.modZone]

theorem State.zone_modZone_ne (s : State) (z y : Zone) (f : ZoneRec → ZoneRec) (h : z ≠ y) :
    (s.modZone z f).zone y = s.zone y := tget_tmod_ne _ _ _ _ h

@[simp] theorem State.remote_modRemote_same (s : State) (z : Zone) (f : RemoteRec → RemoteRec) :
    (s.modRemote z f).remote z = f (s.remote z) := by simp [State.remote, State.modRemote]

theorem State.remote_modRemote_ne (s : State) (z y : Zone) (f : RemoteRec → RemoteRec) (h : z ≠ y) :
    (s.modRemote z f).remote y = s.remote y := tget_tmod_ne _ _ _ _ h

@[simp] theorem State.link_modLink_same (s : State) (f : FPort) (g : LinkRec → LinkRec) :
    (s.modLink f g).link f = g (s.link f) := by simp [State.link, State.modLink]

theorem State.link_modLink_ne (s : State) (f h : FPort) (g : LinkRec → LinkRec) (e : f ≠ h) :
    (s.modLink f g).link h = s.link h := tget_tmod_ne _ _ _ _ e

@[simp] theorem State.cell_modCell_same (s : State) (z : Zone) (t : Tenant) (f : Cell → Cell) :
    (s.modCell z t f).cell z t = f (s.cell z t) := by simp [State.cell, State.modCell]

theorem State.cell_modCell (s : State) (z y : Zone) (t u : Tenant) (f : Cell → Cell) :
    (s.modCell z t f).cell y u = if z = y ∧ t = u then f (s.cell y u) else s.cell y u := by
  simp only [State.cell, State.modCell, tget_tmod]
  by_cases hz : z = y
  · by_cases ht : t = u <;> simp [hz, ht, tget_tmod]
  · simp [hz]

theorem State.cell_modZoneCells (s : State) (z y : Zone) (u : Tenant) (f : Tenant → Cell → Cell) :
    (s.modZoneCells z f).cell y u = if z = y then f u (s.cell y u) else s.cell y u := by
  simp only [State.cell, State.modZoneCells, tget_tmod]
  split <;> simp

theorem State.cell_modColumn (s : State) (t : Tenant) (y : Zone) (u : Tenant) (f : Cell → Cell) :
    (s.modColumn t f).cell y u = if t = u then f (s.cell y u) else s.cell y u := by
  simp [State.cell, State.modColumn, tget_tmod]

@[simp] theorem State.modPort_modPort (s : State) (p : Port) (f g : PortRec → PortRec) :
    (s.modPort p f).modPort p g = s.modPort p fun q => g (f q) := by simp [State.modPort]

@[simp] theorem State.modRemote_modRemote (s : State) (z : Zone) (f g : RemoteRec → RemoteRec) :
    (s.modRemote z f).modRemote z g = s.modRemote z fun r => g (f r) := by simp [State.modRemote]

@[simp] theorem State.modLink_modLink (s : State) (f : FPort) (g h : LinkRec → LinkRec) :
    (s.modLink f g).modLink f h = s.modLink f fun l => h (g l) := by simp [State.modLink]

/-- Changes of two ports commute. -/
theorem State.modPort_comm (s : State) {p q : Port} (h : p ≠ q) (f g : PortRec → PortRec) :
    (s.modPort p f).modPort q g = (s.modPort q g).modPort p f := by
  have hi : portIdx p ≠ portIdx q := fun e => h (portIdx_inj e)
  have : tmod (tmod s.ports (portIdx p) f) (portIdx q) g = tmod (tmod s.ports (portIdx q) g) (portIdx p) f := by
    apply table_ext
    intro j
    simp only [tget_tmod]
    split <;> split <;> first | rfl | (rename_i a b; exact absurd (b.trans a.symm) hi)
  simp only [State.modPort, this]

/-- A record set to what it already holds leaves the state as it is. -/
theorem State.modPort_congr (s : State) (p : Port) {f g : PortRec → PortRec} (h : f (s.port p) = g (s.port p)) :
    s.modPort p f = s.modPort p g := by
  have : tmod s.ports (portIdx p) f = tmod s.ports (portIdx p) g := by
    simp only [tmod]
    exact congrArg _ h
  simp [State.modPort, this]

theorem State.modPort_eq (s : State) (p : Port) (f : PortRec → PortRec) (h : f (s.port p) = s.port p) :
    s.modPort p f = s := by
  have : tmod s.ports (portIdx p) f = s.ports := by
    unfold tmod
    rw [show f (tget s.ports (portIdx p)) = tget s.ports (portIdx p) from h, tset_tget]
  simp [State.modPort, this]

/-! ### modPort -/

section
variable (s : State) (p : Port) (f : PortRec → PortRec)

@[simp] theorem State.modPort_starting : (s.modPort p f).starting = s.starting := rfl
@[simp] theorem State.modPort_tenants : (s.modPort p f).tenants = s.tenants := rfl
@[simp] theorem State.modPort_carrierLock : (s.modPort p f).carrierLock = s.carrierLock := rfl
@[simp] theorem State.modPort_zones : (s.modPort p f).zones = s.zones := rfl
@[simp] theorem State.modPort_cells : (s.modPort p f).cells = s.cells := rfl
@[simp] theorem State.modPort_venueMode : (s.modPort p f).venueMode = s.venueMode := rfl
@[simp] theorem State.modPort_standbyDark : (s.modPort p f).standbyDark = s.standbyDark := rfl
@[simp] theorem State.modPort_moves : (s.modPort p f).moves = s.moves := rfl
@[simp] theorem State.modPort_rampTimer : (s.modPort p f).rampTimer = s.rampTimer := rfl
@[simp] theorem State.modPort_rampTick : (s.modPort p f).rampTick = s.rampTick := rfl
@[simp] theorem State.modPort_rampStep : (s.modPort p f).rampStep = s.rampStep := rfl
@[simp] theorem State.modPort_admitPos : (s.modPort p f).admitPos = s.admitPos := rfl
@[simp] theorem State.modPort_weights : (s.modPort p f).weights = s.weights := rfl
@[simp] theorem State.modPort_censusInterval : (s.modPort p f).censusInterval = s.censusInterval := rfl
@[simp] theorem State.modPort_censusTimer : (s.modPort p f).censusTimer = s.censusTimer := rfl
@[simp] theorem State.modPort_wakeThreshold : (s.modPort p f).wakeThreshold = s.wakeThreshold := rfl
@[simp] theorem State.modPort_wakeDebounce : (s.modPort p f).wakeDebounce = s.wakeDebounce := rfl
@[simp] theorem State.modPort_wakeCount : (s.modPort p f).wakeCount = s.wakeCount := rfl
@[simp] theorem State.modPort_links : (s.modPort p f).links = s.links := rfl
@[simp] theorem State.modPort_pollInterval : (s.modPort p f).pollInterval = s.pollInterval := rfl
@[simp] theorem State.modPort_pollTimer : (s.modPort p f).pollTimer = s.pollTimer := rfl
@[simp] theorem State.modPort_remotes : (s.modPort p f).remotes = s.remotes := rfl
@[simp] theorem State.modPort_lossThreshold : (s.modPort p f).lossThreshold = s.lossThreshold := rfl
@[simp] theorem State.modPort_recoveryCount : (s.modPort p f).recoveryCount = s.recoveryCount := rfl
@[simp] theorem State.modPort_alarmDebounce : (s.modPort p f).alarmDebounce = s.alarmDebounce := rfl
@[simp] theorem State.modPort_derate : (s.modPort p f).derate = s.derate := rfl
@[simp] theorem State.modPort_escalation : (s.modPort p f).escalation = s.escalation := rfl
@[simp] theorem State.modPort_log : (s.modPort p f).log = s.log := rfl
@[simp] theorem State.modPort_seconds : (s.modPort p f).seconds = s.seconds := rfl
@[simp] theorem State.modPort_venueReader : (s.modPort p f).venueReader = s.venueReader := rfl
@[simp] theorem State.modPort_tenantReaders : (s.modPort p f).tenantReaders = s.tenantReaders := rfl
@[simp] theorem State.modPort_pages : (s.modPort p f).pages = s.pages := rfl
@[simp] theorem State.modPort_storeOp : (s.modPort p f).storeOp = s.storeOp := rfl
@[simp] theorem State.modPort_freeCount : (s.modPort p f).freeCount = s.freeCount := rfl
@[simp] theorem State.modPort_pending : (s.modPort p f).pending = s.pending := rfl

end

/-! ### modTenant -/

section
variable (s : State) (t : Tenant) (f : TenantRec → TenantRec)

@[simp] theorem State.modTenant_starting : (s.modTenant t f).starting = s.starting := rfl
@[simp] theorem State.modTenant_ports : (s.modTenant t f).ports = s.ports := rfl
@[simp] theorem State.modTenant_carrierLock : (s.modTenant t f).carrierLock = s.carrierLock := rfl
@[simp] theorem State.modTenant_zones : (s.modTenant t f).zones = s.zones := rfl
@[simp] theorem State.modTenant_cells : (s.modTenant t f).cells = s.cells := rfl
@[simp] theorem State.modTenant_venueMode : (s.modTenant t f).venueMode = s.venueMode := rfl
@[simp] theorem State.modTenant_standbyDark : (s.modTenant t f).standbyDark = s.standbyDark := rfl
@[simp] theorem State.modTenant_moves : (s.modTenant t f).moves = s.moves := rfl
@[simp] theorem State.modTenant_rampTimer : (s.modTenant t f).rampTimer = s.rampTimer := rfl
@[simp] theorem State.modTenant_rampTick : (s.modTenant t f).rampTick = s.rampTick := rfl
@[simp] theorem State.modTenant_rampStep : (s.modTenant t f).rampStep = s.rampStep := rfl
@[simp] theorem State.modTenant_admitPos : (s.modTenant t f).admitPos = s.admitPos := rfl
@[simp] theorem State.modTenant_weights : (s.modTenant t f).weights = s.weights := rfl
@[simp] theorem State.modTenant_censusInterval : (s.modTenant t f).censusInterval = s.censusInterval := rfl
@[simp] theorem State.modTenant_censusTimer : (s.modTenant t f).censusTimer = s.censusTimer := rfl
@[simp] theorem State.modTenant_wakeThreshold : (s.modTenant t f).wakeThreshold = s.wakeThreshold := rfl
@[simp] theorem State.modTenant_wakeDebounce : (s.modTenant t f).wakeDebounce = s.wakeDebounce := rfl
@[simp] theorem State.modTenant_wakeCount : (s.modTenant t f).wakeCount = s.wakeCount := rfl
@[simp] theorem State.modTenant_links : (s.modTenant t f).links = s.links := rfl
@[simp] theorem State.modTenant_pollInterval : (s.modTenant t f).pollInterval = s.pollInterval := rfl
@[simp] theorem State.modTenant_pollTimer : (s.modTenant t f).pollTimer = s.pollTimer := rfl
@[simp] theorem State.modTenant_remotes : (s.modTenant t f).remotes = s.remotes := rfl
@[simp] theorem State.modTenant_lossThreshold : (s.modTenant t f).lossThreshold = s.lossThreshold := rfl
@[simp] theorem State.modTenant_recoveryCount : (s.modTenant t f).recoveryCount = s.recoveryCount := rfl
@[simp] theorem State.modTenant_alarmDebounce : (s.modTenant t f).alarmDebounce = s.alarmDebounce := rfl
@[simp] theorem State.modTenant_derate : (s.modTenant t f).derate = s.derate := rfl
@[simp] theorem State.modTenant_escalation : (s.modTenant t f).escalation = s.escalation := rfl
@[simp] theorem State.modTenant_log : (s.modTenant t f).log = s.log := rfl
@[simp] theorem State.modTenant_seconds : (s.modTenant t f).seconds = s.seconds := rfl
@[simp] theorem State.modTenant_venueReader : (s.modTenant t f).venueReader = s.venueReader := rfl
@[simp] theorem State.modTenant_tenantReaders : (s.modTenant t f).tenantReaders = s.tenantReaders := rfl
@[simp] theorem State.modTenant_pages : (s.modTenant t f).pages = s.pages := rfl
@[simp] theorem State.modTenant_storeOp : (s.modTenant t f).storeOp = s.storeOp := rfl
@[simp] theorem State.modTenant_freeCount : (s.modTenant t f).freeCount = s.freeCount := rfl
@[simp] theorem State.modTenant_pending : (s.modTenant t f).pending = s.pending := rfl

end

/-! ### modZone -/

section
variable (s : State) (z : Zone) (f : ZoneRec → ZoneRec)

@[simp] theorem State.modZone_starting : (s.modZone z f).starting = s.starting := rfl
@[simp] theorem State.modZone_ports : (s.modZone z f).ports = s.ports := rfl
@[simp] theorem State.modZone_tenants : (s.modZone z f).tenants = s.tenants := rfl
@[simp] theorem State.modZone_carrierLock : (s.modZone z f).carrierLock = s.carrierLock := rfl
@[simp] theorem State.modZone_cells : (s.modZone z f).cells = s.cells := rfl
@[simp] theorem State.modZone_venueMode : (s.modZone z f).venueMode = s.venueMode := rfl
@[simp] theorem State.modZone_standbyDark : (s.modZone z f).standbyDark = s.standbyDark := rfl
@[simp] theorem State.modZone_moves : (s.modZone z f).moves = s.moves := rfl
@[simp] theorem State.modZone_rampTimer : (s.modZone z f).rampTimer = s.rampTimer := rfl
@[simp] theorem State.modZone_rampTick : (s.modZone z f).rampTick = s.rampTick := rfl
@[simp] theorem State.modZone_rampStep : (s.modZone z f).rampStep = s.rampStep := rfl
@[simp] theorem State.modZone_admitPos : (s.modZone z f).admitPos = s.admitPos := rfl
@[simp] theorem State.modZone_weights : (s.modZone z f).weights = s.weights := rfl
@[simp] theorem State.modZone_censusInterval : (s.modZone z f).censusInterval = s.censusInterval := rfl
@[simp] theorem State.modZone_censusTimer : (s.modZone z f).censusTimer = s.censusTimer := rfl
@[simp] theorem State.modZone_wakeThreshold : (s.modZone z f).wakeThreshold = s.wakeThreshold := rfl
@[simp] theorem State.modZone_wakeDebounce : (s.modZone z f).wakeDebounce = s.wakeDebounce := rfl
@[simp] theorem State.modZone_wakeCount : (s.modZone z f).wakeCount = s.wakeCount := rfl
@[simp] theorem State.modZone_links : (s.modZone z f).links = s.links := rfl
@[simp] theorem State.modZone_pollInterval : (s.modZone z f).pollInterval = s.pollInterval := rfl
@[simp] theorem State.modZone_pollTimer : (s.modZone z f).pollTimer = s.pollTimer := rfl
@[simp] theorem State.modZone_remotes : (s.modZone z f).remotes = s.remotes := rfl
@[simp] theorem State.modZone_lossThreshold : (s.modZone z f).lossThreshold = s.lossThreshold := rfl
@[simp] theorem State.modZone_recoveryCount : (s.modZone z f).recoveryCount = s.recoveryCount := rfl
@[simp] theorem State.modZone_alarmDebounce : (s.modZone z f).alarmDebounce = s.alarmDebounce := rfl
@[simp] theorem State.modZone_derate : (s.modZone z f).derate = s.derate := rfl
@[simp] theorem State.modZone_escalation : (s.modZone z f).escalation = s.escalation := rfl
@[simp] theorem State.modZone_log : (s.modZone z f).log = s.log := rfl
@[simp] theorem State.modZone_seconds : (s.modZone z f).seconds = s.seconds := rfl
@[simp] theorem State.modZone_venueReader : (s.modZone z f).venueReader = s.venueReader := rfl
@[simp] theorem State.modZone_tenantReaders : (s.modZone z f).tenantReaders = s.tenantReaders := rfl
@[simp] theorem State.modZone_pages : (s.modZone z f).pages = s.pages := rfl
@[simp] theorem State.modZone_storeOp : (s.modZone z f).storeOp = s.storeOp := rfl
@[simp] theorem State.modZone_freeCount : (s.modZone z f).freeCount = s.freeCount := rfl
@[simp] theorem State.modZone_pending : (s.modZone z f).pending = s.pending := rfl

end

/-! ### modCell -/

section
variable (s : State) (z : Zone) (t : Tenant) (f : Cell → Cell)

@[simp] theorem State.modCell_starting : (s.modCell z t f).starting = s.starting := rfl
@[simp] theorem State.modCell_ports : (s.modCell z t f).ports = s.ports := rfl
@[simp] theorem State.modCell_tenants : (s.modCell z t f).tenants = s.tenants := rfl
@[simp] theorem State.modCell_carrierLock : (s.modCell z t f).carrierLock = s.carrierLock := rfl
@[simp] theorem State.modCell_zones : (s.modCell z t f).zones = s.zones := rfl
@[simp] theorem State.modCell_venueMode : (s.modCell z t f).venueMode = s.venueMode := rfl
@[simp] theorem State.modCell_standbyDark : (s.modCell z t f).standbyDark = s.standbyDark := rfl
@[simp] theorem State.modCell_moves : (s.modCell z t f).moves = s.moves := rfl
@[simp] theorem State.modCell_rampTimer : (s.modCell z t f).rampTimer = s.rampTimer := rfl
@[simp] theorem State.modCell_rampTick : (s.modCell z t f).rampTick = s.rampTick := rfl
@[simp] theorem State.modCell_rampStep : (s.modCell z t f).rampStep = s.rampStep := rfl
@[simp] theorem State.modCell_admitPos : (s.modCell z t f).admitPos = s.admitPos := rfl
@[simp] theorem State.modCell_weights : (s.modCell z t f).weights = s.weights := rfl
@[simp] theorem State.modCell_censusInterval : (s.modCell z t f).censusInterval = s.censusInterval := rfl
@[simp] theorem State.modCell_censusTimer : (s.modCell z t f).censusTimer = s.censusTimer := rfl
@[simp] theorem State.modCell_wakeThreshold : (s.modCell z t f).wakeThreshold = s.wakeThreshold := rfl
@[simp] theorem State.modCell_wakeDebounce : (s.modCell z t f).wakeDebounce = s.wakeDebounce := rfl
@[simp] theorem State.modCell_wakeCount : (s.modCell z t f).wakeCount = s.wakeCount := rfl
@[simp] theorem State.modCell_links : (s.modCell z t f).links = s.links := rfl
@[simp] theorem State.modCell_pollInterval : (s.modCell z t f).pollInterval = s.pollInterval := rfl
@[simp] theorem State.modCell_pollTimer : (s.modCell z t f).pollTimer = s.pollTimer := rfl
@[simp] theorem State.modCell_remotes : (s.modCell z t f).remotes = s.remotes := rfl
@[simp] theorem State.modCell_lossThreshold : (s.modCell z t f).lossThreshold = s.lossThreshold := rfl
@[simp] theorem State.modCell_recoveryCount : (s.modCell z t f).recoveryCount = s.recoveryCount := rfl
@[simp] theorem State.modCell_alarmDebounce : (s.modCell z t f).alarmDebounce = s.alarmDebounce := rfl
@[simp] theorem State.modCell_derate : (s.modCell z t f).derate = s.derate := rfl
@[simp] theorem State.modCell_escalation : (s.modCell z t f).escalation = s.escalation := rfl
@[simp] theorem State.modCell_log : (s.modCell z t f).log = s.log := rfl
@[simp] theorem State.modCell_seconds : (s.modCell z t f).seconds = s.seconds := rfl
@[simp] theorem State.modCell_venueReader : (s.modCell z t f).venueReader = s.venueReader := rfl
@[simp] theorem State.modCell_tenantReaders : (s.modCell z t f).tenantReaders = s.tenantReaders := rfl
@[simp] theorem State.modCell_pages : (s.modCell z t f).pages = s.pages := rfl
@[simp] theorem State.modCell_storeOp : (s.modCell z t f).storeOp = s.storeOp := rfl
@[simp] theorem State.modCell_freeCount : (s.modCell z t f).freeCount = s.freeCount := rfl
@[simp] theorem State.modCell_pending : (s.modCell z t f).pending = s.pending := rfl

end

/-! ### modZoneCells -/

section
variable (s : State) (z : Zone) (f : Tenant → Cell → Cell)

@[simp] theorem State.modZoneCells_starting : (s.modZoneCells z f).starting = s.starting := rfl
@[simp] theorem State.modZoneCells_ports : (s.modZoneCells z f).ports = s.ports := rfl
@[simp] theorem State.modZoneCells_tenants : (s.modZoneCells z f).tenants = s.tenants := rfl
@[simp] theorem State.modZoneCells_carrierLock : (s.modZoneCells z f).carrierLock = s.carrierLock := rfl
@[simp] theorem State.modZoneCells_zones : (s.modZoneCells z f).zones = s.zones := rfl
@[simp] theorem State.modZoneCells_venueMode : (s.modZoneCells z f).venueMode = s.venueMode := rfl
@[simp] theorem State.modZoneCells_standbyDark : (s.modZoneCells z f).standbyDark = s.standbyDark := rfl
@[simp] theorem State.modZoneCells_moves : (s.modZoneCells z f).moves = s.moves := rfl
@[simp] theorem State.modZoneCells_rampTimer : (s.modZoneCells z f).rampTimer = s.rampTimer := rfl
@[simp] theorem State.modZoneCells_rampTick : (s.modZoneCells z f).rampTick = s.rampTick := rfl
@[simp] theorem State.modZoneCells_rampStep : (s.modZoneCells z f).rampStep = s.rampStep := rfl
@[simp] theorem State.modZoneCells_admitPos : (s.modZoneCells z f).admitPos = s.admitPos := rfl
@[simp] theorem State.modZoneCells_weights : (s.modZoneCells z f).weights = s.weights := rfl
@[simp] theorem State.modZoneCells_censusInterval : (s.modZoneCells z f).censusInterval = s.censusInterval := rfl
@[simp] theorem State.modZoneCells_censusTimer : (s.modZoneCells z f).censusTimer = s.censusTimer := rfl
@[simp] theorem State.modZoneCells_wakeThreshold : (s.modZoneCells z f).wakeThreshold = s.wakeThreshold := rfl
@[simp] theorem State.modZoneCells_wakeDebounce : (s.modZoneCells z f).wakeDebounce = s.wakeDebounce := rfl
@[simp] theorem State.modZoneCells_wakeCount : (s.modZoneCells z f).wakeCount = s.wakeCount := rfl
@[simp] theorem State.modZoneCells_links : (s.modZoneCells z f).links = s.links := rfl
@[simp] theorem State.modZoneCells_pollInterval : (s.modZoneCells z f).pollInterval = s.pollInterval := rfl
@[simp] theorem State.modZoneCells_pollTimer : (s.modZoneCells z f).pollTimer = s.pollTimer := rfl
@[simp] theorem State.modZoneCells_remotes : (s.modZoneCells z f).remotes = s.remotes := rfl
@[simp] theorem State.modZoneCells_lossThreshold : (s.modZoneCells z f).lossThreshold = s.lossThreshold := rfl
@[simp] theorem State.modZoneCells_recoveryCount : (s.modZoneCells z f).recoveryCount = s.recoveryCount := rfl
@[simp] theorem State.modZoneCells_alarmDebounce : (s.modZoneCells z f).alarmDebounce = s.alarmDebounce := rfl
@[simp] theorem State.modZoneCells_derate : (s.modZoneCells z f).derate = s.derate := rfl
@[simp] theorem State.modZoneCells_escalation : (s.modZoneCells z f).escalation = s.escalation := rfl
@[simp] theorem State.modZoneCells_log : (s.modZoneCells z f).log = s.log := rfl
@[simp] theorem State.modZoneCells_seconds : (s.modZoneCells z f).seconds = s.seconds := rfl
@[simp] theorem State.modZoneCells_venueReader : (s.modZoneCells z f).venueReader = s.venueReader := rfl
@[simp] theorem State.modZoneCells_tenantReaders : (s.modZoneCells z f).tenantReaders = s.tenantReaders := rfl
@[simp] theorem State.modZoneCells_pages : (s.modZoneCells z f).pages = s.pages := rfl
@[simp] theorem State.modZoneCells_storeOp : (s.modZoneCells z f).storeOp = s.storeOp := rfl
@[simp] theorem State.modZoneCells_freeCount : (s.modZoneCells z f).freeCount = s.freeCount := rfl
@[simp] theorem State.modZoneCells_pending : (s.modZoneCells z f).pending = s.pending := rfl

end

/-! ### modColumn -/

section
variable (s : State) (t : Tenant) (f : Cell → Cell)

@[simp] theorem State.modColumn_starting : (s.modColumn t f).starting = s.starting := rfl
@[simp] theorem State.modColumn_ports : (s.modColumn t f).ports = s.ports := rfl
@[simp] theorem State.modColumn_tenants : (s.modColumn t f).tenants = s.tenants := rfl
@[simp] theorem State.modColumn_carrierLock : (s.modColumn t f).carrierLock = s.carrierLock := rfl
@[simp] theorem State.modColumn_zones : (s.modColumn t f).zones = s.zones := rfl
@[simp] theorem State.modColumn_venueMode : (s.modColumn t f).venueMode = s.venueMode := rfl
@[simp] theorem State.modColumn_standbyDark : (s.modColumn t f).standbyDark = s.standbyDark := rfl
@[simp] theorem State.modColumn_moves : (s.modColumn t f).moves = s.moves := rfl
@[simp] theorem State.modColumn_rampTimer : (s.modColumn t f).rampTimer = s.rampTimer := rfl
@[simp] theorem State.modColumn_rampTick : (s.modColumn t f).rampTick = s.rampTick := rfl
@[simp] theorem State.modColumn_rampStep : (s.modColumn t f).rampStep = s.rampStep := rfl
@[simp] theorem State.modColumn_admitPos : (s.modColumn t f).admitPos = s.admitPos := rfl
@[simp] theorem State.modColumn_weights : (s.modColumn t f).weights = s.weights := rfl
@[simp] theorem State.modColumn_censusInterval : (s.modColumn t f).censusInterval = s.censusInterval := rfl
@[simp] theorem State.modColumn_censusTimer : (s.modColumn t f).censusTimer = s.censusTimer := rfl
@[simp] theorem State.modColumn_wakeThreshold : (s.modColumn t f).wakeThreshold = s.wakeThreshold := rfl
@[simp] theorem State.modColumn_wakeDebounce : (s.modColumn t f).wakeDebounce = s.wakeDebounce := rfl
@[simp] theorem State.modColumn_wakeCount : (s.modColumn t f).wakeCount = s.wakeCount := rfl
@[simp] theorem State.modColumn_links : (s.modColumn t f).links = s.links := rfl
@[simp] theorem State.modColumn_pollInterval : (s.modColumn t f).pollInterval = s.pollInterval := rfl
@[simp] theorem State.modColumn_pollTimer : (s.modColumn t f).pollTimer = s.pollTimer := rfl
@[simp] theorem State.modColumn_remotes : (s.modColumn t f).remotes = s.remotes := rfl
@[simp] theorem State.modColumn_lossThreshold : (s.modColumn t f).lossThreshold = s.lossThreshold := rfl
@[simp] theorem State.modColumn_recoveryCount : (s.modColumn t f).recoveryCount = s.recoveryCount := rfl
@[simp] theorem State.modColumn_alarmDebounce : (s.modColumn t f).alarmDebounce = s.alarmDebounce := rfl
@[simp] theorem State.modColumn_derate : (s.modColumn t f).derate = s.derate := rfl
@[simp] theorem State.modColumn_escalation : (s.modColumn t f).escalation = s.escalation := rfl
@[simp] theorem State.modColumn_log : (s.modColumn t f).log = s.log := rfl
@[simp] theorem State.modColumn_seconds : (s.modColumn t f).seconds = s.seconds := rfl
@[simp] theorem State.modColumn_venueReader : (s.modColumn t f).venueReader = s.venueReader := rfl
@[simp] theorem State.modColumn_tenantReaders : (s.modColumn t f).tenantReaders = s.tenantReaders := rfl
@[simp] theorem State.modColumn_pages : (s.modColumn t f).pages = s.pages := rfl
@[simp] theorem State.modColumn_storeOp : (s.modColumn t f).storeOp = s.storeOp := rfl
@[simp] theorem State.modColumn_freeCount : (s.modColumn t f).freeCount = s.freeCount := rfl
@[simp] theorem State.modColumn_pending : (s.modColumn t f).pending = s.pending := rfl

end

/-! ### modRemote -/

section
variable (s : State) (z : Zone) (f : RemoteRec → RemoteRec)

@[simp] theorem State.modRemote_starting : (s.modRemote z f).starting = s.starting := rfl
@[simp] theorem State.modRemote_ports : (s.modRemote z f).ports = s.ports := rfl
@[simp] theorem State.modRemote_tenants : (s.modRemote z f).tenants = s.tenants := rfl
@[simp] theorem State.modRemote_carrierLock : (s.modRemote z f).carrierLock = s.carrierLock := rfl
@[simp] theorem State.modRemote_zones : (s.modRemote z f).zones = s.zones := rfl
@[simp] theorem State.modRemote_cells : (s.modRemote z f).cells = s.cells := rfl
@[simp] theorem State.modRemote_venueMode : (s.modRemote z f).venueMode = s.venueMode := rfl
@[simp] theorem State.modRemote_standbyDark : (s.modRemote z f).standbyDark = s.standbyDark := rfl
@[simp] theorem State.modRemote_moves : (s.modRemote z f).moves = s.moves := rfl
@[simp] theorem State.modRemote_rampTimer : (s.modRemote z f).rampTimer = s.rampTimer := rfl
@[simp] theorem State.modRemote_rampTick : (s.modRemote z f).rampTick = s.rampTick := rfl
@[simp] theorem State.modRemote_rampStep : (s.modRemote z f).rampStep = s.rampStep := rfl
@[simp] theorem State.modRemote_admitPos : (s.modRemote z f).admitPos = s.admitPos := rfl
@[simp] theorem State.modRemote_weights : (s.modRemote z f).weights = s.weights := rfl
@[simp] theorem State.modRemote_censusInterval : (s.modRemote z f).censusInterval = s.censusInterval := rfl
@[simp] theorem State.modRemote_censusTimer : (s.modRemote z f).censusTimer = s.censusTimer := rfl
@[simp] theorem State.modRemote_wakeThreshold : (s.modRemote z f).wakeThreshold = s.wakeThreshold := rfl
@[simp] theorem State.modRemote_wakeDebounce : (s.modRemote z f).wakeDebounce = s.wakeDebounce := rfl
@[simp] theorem State.modRemote_wakeCount : (s.modRemote z f).wakeCount = s.wakeCount := rfl
@[simp] theorem State.modRemote_links : (s.modRemote z f).links = s.links := rfl
@[simp] theorem State.modRemote_pollInterval : (s.modRemote z f).pollInterval = s.pollInterval := rfl
@[simp] theorem State.modRemote_pollTimer : (s.modRemote z f).pollTimer = s.pollTimer := rfl
@[simp] theorem State.modRemote_lossThreshold : (s.modRemote z f).lossThreshold = s.lossThreshold := rfl
@[simp] theorem State.modRemote_recoveryCount : (s.modRemote z f).recoveryCount = s.recoveryCount := rfl
@[simp] theorem State.modRemote_alarmDebounce : (s.modRemote z f).alarmDebounce = s.alarmDebounce := rfl
@[simp] theorem State.modRemote_derate : (s.modRemote z f).derate = s.derate := rfl
@[simp] theorem State.modRemote_escalation : (s.modRemote z f).escalation = s.escalation := rfl
@[simp] theorem State.modRemote_log : (s.modRemote z f).log = s.log := rfl
@[simp] theorem State.modRemote_seconds : (s.modRemote z f).seconds = s.seconds := rfl
@[simp] theorem State.modRemote_venueReader : (s.modRemote z f).venueReader = s.venueReader := rfl
@[simp] theorem State.modRemote_tenantReaders : (s.modRemote z f).tenantReaders = s.tenantReaders := rfl
@[simp] theorem State.modRemote_pages : (s.modRemote z f).pages = s.pages := rfl
@[simp] theorem State.modRemote_storeOp : (s.modRemote z f).storeOp = s.storeOp := rfl
@[simp] theorem State.modRemote_freeCount : (s.modRemote z f).freeCount = s.freeCount := rfl
@[simp] theorem State.modRemote_pending : (s.modRemote z f).pending = s.pending := rfl

end

/-! ### modLink -/

section
variable (s : State) (f : FPort) (g : LinkRec → LinkRec)

@[simp] theorem State.modLink_starting : (s.modLink f g).starting = s.starting := rfl
@[simp] theorem State.modLink_ports : (s.modLink f g).ports = s.ports := rfl
@[simp] theorem State.modLink_tenants : (s.modLink f g).tenants = s.tenants := rfl
@[simp] theorem State.modLink_carrierLock : (s.modLink f g).carrierLock = s.carrierLock := rfl
@[simp] theorem State.modLink_zones : (s.modLink f g).zones = s.zones := rfl
@[simp] theorem State.modLink_cells : (s.modLink f g).cells = s.cells := rfl
@[simp] theorem State.modLink_venueMode : (s.modLink f g).venueMode = s.venueMode := rfl
@[simp] theorem State.modLink_standbyDark : (s.modLink f g).standbyDark = s.standbyDark := rfl
@[simp] theorem State.modLink_moves : (s.modLink f g).moves = s.moves := rfl
@[simp] theorem State.modLink_rampTimer : (s.modLink f g).rampTimer = s.rampTimer := rfl
@[simp] theorem State.modLink_rampTick : (s.modLink f g).rampTick = s.rampTick := rfl
@[simp] theorem State.modLink_rampStep : (s.modLink f g).rampStep = s.rampStep := rfl
@[simp] theorem State.modLink_admitPos : (s.modLink f g).admitPos = s.admitPos := rfl
@[simp] theorem State.modLink_weights : (s.modLink f g).weights = s.weights := rfl
@[simp] theorem State.modLink_censusInterval : (s.modLink f g).censusInterval = s.censusInterval := rfl
@[simp] theorem State.modLink_censusTimer : (s.modLink f g).censusTimer = s.censusTimer := rfl
@[simp] theorem State.modLink_wakeThreshold : (s.modLink f g).wakeThreshold = s.wakeThreshold := rfl
@[simp] theorem State.modLink_wakeDebounce : (s.modLink f g).wakeDebounce = s.wakeDebounce := rfl
@[simp] theorem State.modLink_wakeCount : (s.modLink f g).wakeCount = s.wakeCount := rfl
@[simp] theorem State.modLink_pollInterval : (s.modLink f g).pollInterval = s.pollInterval := rfl
@[simp] theorem State.modLink_pollTimer : (s.modLink f g).pollTimer = s.pollTimer := rfl
@[simp] theorem State.modLink_remotes : (s.modLink f g).remotes = s.remotes := rfl
@[simp] theorem State.modLink_lossThreshold : (s.modLink f g).lossThreshold = s.lossThreshold := rfl
@[simp] theorem State.modLink_recoveryCount : (s.modLink f g).recoveryCount = s.recoveryCount := rfl
@[simp] theorem State.modLink_alarmDebounce : (s.modLink f g).alarmDebounce = s.alarmDebounce := rfl
@[simp] theorem State.modLink_derate : (s.modLink f g).derate = s.derate := rfl
@[simp] theorem State.modLink_escalation : (s.modLink f g).escalation = s.escalation := rfl
@[simp] theorem State.modLink_log : (s.modLink f g).log = s.log := rfl
@[simp] theorem State.modLink_seconds : (s.modLink f g).seconds = s.seconds := rfl
@[simp] theorem State.modLink_venueReader : (s.modLink f g).venueReader = s.venueReader := rfl
@[simp] theorem State.modLink_tenantReaders : (s.modLink f g).tenantReaders = s.tenantReaders := rfl
@[simp] theorem State.modLink_pages : (s.modLink f g).pages = s.pages := rfl
@[simp] theorem State.modLink_storeOp : (s.modLink f g).storeOp = s.storeOp := rfl
@[simp] theorem State.modLink_freeCount : (s.modLink f g).freeCount = s.freeCount := rfl
@[simp] theorem State.modLink_pending : (s.modLink f g).pending = s.pending := rfl

end

/-! ### modMove -/

section
variable (s : State) (z : Zone) (t : Tenant) (f : Move → Move)

@[simp] theorem State.modMove_starting : (s.modMove z t f).starting = s.starting := rfl
@[simp] theorem State.modMove_ports : (s.modMove z t f).ports = s.ports := rfl
@[simp] theorem State.modMove_tenants : (s.modMove z t f).tenants = s.tenants := rfl
@[simp] theorem State.modMove_carrierLock : (s.modMove z t f).carrierLock = s.carrierLock := rfl
@[simp] theorem State.modMove_zones : (s.modMove z t f).zones = s.zones := rfl
@[simp] theorem State.modMove_cells : (s.modMove z t f).cells = s.cells := rfl
@[simp] theorem State.modMove_venueMode : (s.modMove z t f).venueMode = s.venueMode := rfl
@[simp] theorem State.modMove_standbyDark : (s.modMove z t f).standbyDark = s.standbyDark := rfl
@[simp] theorem State.modMove_rampTimer : (s.modMove z t f).rampTimer = s.rampTimer := rfl
@[simp] theorem State.modMove_rampTick : (s.modMove z t f).rampTick = s.rampTick := rfl
@[simp] theorem State.modMove_rampStep : (s.modMove z t f).rampStep = s.rampStep := rfl
@[simp] theorem State.modMove_admitPos : (s.modMove z t f).admitPos = s.admitPos := rfl
@[simp] theorem State.modMove_weights : (s.modMove z t f).weights = s.weights := rfl
@[simp] theorem State.modMove_censusInterval : (s.modMove z t f).censusInterval = s.censusInterval := rfl
@[simp] theorem State.modMove_censusTimer : (s.modMove z t f).censusTimer = s.censusTimer := rfl
@[simp] theorem State.modMove_wakeThreshold : (s.modMove z t f).wakeThreshold = s.wakeThreshold := rfl
@[simp] theorem State.modMove_wakeDebounce : (s.modMove z t f).wakeDebounce = s.wakeDebounce := rfl
@[simp] theorem State.modMove_wakeCount : (s.modMove z t f).wakeCount = s.wakeCount := rfl
@[simp] theorem State.modMove_links : (s.modMove z t f).links = s.links := rfl
@[simp] theorem State.modMove_pollInterval : (s.modMove z t f).pollInterval = s.pollInterval := rfl
@[simp] theorem State.modMove_pollTimer : (s.modMove z t f).pollTimer = s.pollTimer := rfl
@[simp] theorem State.modMove_remotes : (s.modMove z t f).remotes = s.remotes := rfl
@[simp] theorem State.modMove_lossThreshold : (s.modMove z t f).lossThreshold = s.lossThreshold := rfl
@[simp] theorem State.modMove_recoveryCount : (s.modMove z t f).recoveryCount = s.recoveryCount := rfl
@[simp] theorem State.modMove_alarmDebounce : (s.modMove z t f).alarmDebounce = s.alarmDebounce := rfl
@[simp] theorem State.modMove_derate : (s.modMove z t f).derate = s.derate := rfl
@[simp] theorem State.modMove_escalation : (s.modMove z t f).escalation = s.escalation := rfl
@[simp] theorem State.modMove_log : (s.modMove z t f).log = s.log := rfl
@[simp] theorem State.modMove_seconds : (s.modMove z t f).seconds = s.seconds := rfl
@[simp] theorem State.modMove_venueReader : (s.modMove z t f).venueReader = s.venueReader := rfl
@[simp] theorem State.modMove_tenantReaders : (s.modMove z t f).tenantReaders = s.tenantReaders := rfl
@[simp] theorem State.modMove_pages : (s.modMove z t f).pages = s.pages := rfl
@[simp] theorem State.modMove_storeOp : (s.modMove z t f).storeOp = s.storeOp := rfl
@[simp] theorem State.modMove_freeCount : (s.modMove z t f).freeCount = s.freeCount := rfl
@[simp] theorem State.modMove_pending : (s.modMove z t f).pending = s.pending := rfl

end

/-! ### dropMove -/

section
variable (s : State) (z : Zone) (t : Tenant)

@[simp] theorem State.dropMove_starting : (s.dropMove z t).starting = s.starting := rfl
@[simp] theorem State.dropMove_ports : (s.dropMove z t).ports = s.ports := rfl
@[simp] theorem State.dropMove_tenants : (s.dropMove z t).tenants = s.tenants := rfl
@[simp] theorem State.dropMove_carrierLock : (s.dropMove z t).carrierLock = s.carrierLock := rfl
@[simp] theorem State.dropMove_zones : (s.dropMove z t).zones = s.zones := rfl
@[simp] theorem State.dropMove_cells : (s.dropMove z t).cells = s.cells := rfl
@[simp] theorem State.dropMove_venueMode : (s.dropMove z t).venueMode = s.venueMode := rfl
@[simp] theorem State.dropMove_standbyDark : (s.dropMove z t).standbyDark = s.standbyDark := rfl
@[simp] theorem State.dropMove_rampTimer : (s.dropMove z t).rampTimer = s.rampTimer := rfl
@[simp] theorem State.dropMove_rampTick : (s.dropMove z t).rampTick = s.rampTick := rfl
@[simp] theorem State.dropMove_rampStep : (s.dropMove z t).rampStep = s.rampStep := rfl
@[simp] theorem State.dropMove_admitPos : (s.dropMove z t).admitPos = s.admitPos := rfl
@[simp] theorem State.dropMove_weights : (s.dropMove z t).weights = s.weights := rfl
@[simp] theorem State.dropMove_censusInterval : (s.dropMove z t).censusInterval = s.censusInterval := rfl
@[simp] theorem State.dropMove_censusTimer : (s.dropMove z t).censusTimer = s.censusTimer := rfl
@[simp] theorem State.dropMove_wakeThreshold : (s.dropMove z t).wakeThreshold = s.wakeThreshold := rfl
@[simp] theorem State.dropMove_wakeDebounce : (s.dropMove z t).wakeDebounce = s.wakeDebounce := rfl
@[simp] theorem State.dropMove_wakeCount : (s.dropMove z t).wakeCount = s.wakeCount := rfl
@[simp] theorem State.dropMove_links : (s.dropMove z t).links = s.links := rfl
@[simp] theorem State.dropMove_pollInterval : (s.dropMove z t).pollInterval = s.pollInterval := rfl
@[simp] theorem State.dropMove_pollTimer : (s.dropMove z t).pollTimer = s.pollTimer := rfl
@[simp] theorem State.dropMove_remotes : (s.dropMove z t).remotes = s.remotes := rfl
@[simp] theorem State.dropMove_lossThreshold : (s.dropMove z t).lossThreshold = s.lossThreshold := rfl
@[simp] theorem State.dropMove_recoveryCount : (s.dropMove z t).recoveryCount = s.recoveryCount := rfl
@[simp] theorem State.dropMove_alarmDebounce : (s.dropMove z t).alarmDebounce = s.alarmDebounce := rfl
@[simp] theorem State.dropMove_derate : (s.dropMove z t).derate = s.derate := rfl
@[simp] theorem State.dropMove_escalation : (s.dropMove z t).escalation = s.escalation := rfl
@[simp] theorem State.dropMove_log : (s.dropMove z t).log = s.log := rfl
@[simp] theorem State.dropMove_seconds : (s.dropMove z t).seconds = s.seconds := rfl
@[simp] theorem State.dropMove_venueReader : (s.dropMove z t).venueReader = s.venueReader := rfl
@[simp] theorem State.dropMove_tenantReaders : (s.dropMove z t).tenantReaders = s.tenantReaders := rfl
@[simp] theorem State.dropMove_pages : (s.dropMove z t).pages = s.pages := rfl
@[simp] theorem State.dropMove_storeOp : (s.dropMove z t).storeOp = s.storeOp := rfl
@[simp] theorem State.dropMove_freeCount : (s.dropMove z t).freeCount = s.freeCount := rfl
@[simp] theorem State.dropMove_pending : (s.dropMove z t).pending = s.pending := rfl

end

/-! ### The accessors after an update of another record -/

section
variable (s : State) (p : Port) (f : PortRec → PortRec)

@[simp] theorem State.tenant_modPort (u : Tenant) : (s.modPort p f).tenant u = s.tenant u := rfl
@[simp] theorem State.zone_modPort (y : Zone) : (s.modPort p f).zone y = s.zone y := rfl
@[simp] theorem State.cell_modPort (y : Zone) (u : Tenant) : (s.modPort p f).cell y u = s.cell y u := rfl
@[simp] theorem State.remote_modPort (y : Zone) : (s.modPort p f).remote y = s.remote y := rfl
@[simp] theorem State.link_modPort (h : FPort) : (s.modPort p f).link h = s.link h := rfl

end

section
variable (s : State) (t : Tenant) (f : TenantRec → TenantRec)

@[simp] theorem State.port_modTenant (q : Port) : (s.modTenant t f).port q = s.port q := rfl
@[simp] theorem State.zone_modTenant (y : Zone) : (s.modTenant t f).zone y = s.zone y := rfl
@[simp] theorem State.cell_modTenant (y : Zone) (u : Tenant) : (s.modTenant t f).cell y u = s.cell y u := rfl
@[simp] theorem State.remote_modTenant (y : Zone) : (s.modTenant t f).remote y = s.remote y := rfl
@[simp] theorem State.link_modTenant (h : FPort) : (s.modTenant t f).link h = s.link h := rfl

end

section
variable (s : State) (z : Zone) (f : ZoneRec → ZoneRec)

@[simp] theorem State.port_modZone (q : Port) : (s.modZone z f).port q = s.port q := rfl
@[simp] theorem State.tenant_modZone (u : Tenant) : (s.modZone z f).tenant u = s.tenant u := rfl
@[simp] theorem State.cell_modZone (y : Zone) (u : Tenant) : (s.modZone z f).cell y u = s.cell y u := rfl
@[simp] theorem State.remote_modZone (y : Zone) : (s.modZone z f).remote y = s.remote y := rfl
@[simp] theorem State.link_modZone (h : FPort) : (s.modZone z f).link h = s.link h := rfl

end

section
variable (s : State) (z : Zone) (t : Tenant) (f : Cell → Cell)

@[simp] theorem State.port_modCell (q : Port) : (s.modCell z t f).port q = s.port q := rfl
@[simp] theorem State.tenant_modCell (u : Tenant) : (s.modCell z t f).tenant u = s.tenant u := rfl
@[simp] theorem State.zone_modCell (y : Zone) : (s.modCell z t f).zone y = s.zone y := rfl
@[simp] theorem State.remote_modCell (y : Zone) : (s.modCell z t f).remote y = s.remote y := rfl
@[simp] theorem State.link_modCell (h : FPort) : (s.modCell z t f).link h = s.link h := rfl

end

section
variable (s : State) (z : Zone) (f : Tenant → Cell → Cell)

@[simp] theorem State.port_modZoneCells (q : Port) : (s.modZoneCells z f).port q = s.port q := rfl
@[simp] theorem State.tenant_modZoneCells (u : Tenant) : (s.modZoneCells z f).tenant u = s.tenant u := rfl
@[simp] theorem State.zone_modZoneCells (y : Zone) : (s.modZoneCells z f).zone y = s.zone y := rfl
@[simp] theorem State.remote_modZoneCells (y : Zone) : (s.modZoneCells z f).remote y = s.remote y := rfl
@[simp] theorem State.link_modZoneCells (h : FPort) : (s.modZoneCells z f).link h = s.link h := rfl

end

section
variable (s : State) (t : Tenant) (f : Cell → Cell)

@[simp] theorem State.port_modColumn (q : Port) : (s.modColumn t f).port q = s.port q := rfl
@[simp] theorem State.tenant_modColumn (u : Tenant) : (s.modColumn t f).tenant u = s.tenant u := rfl
@[simp] theorem State.zone_modColumn (y : Zone) : (s.modColumn t f).zone y = s.zone y := rfl
@[simp] theorem State.remote_modColumn (y : Zone) : (s.modColumn t f).remote y = s.remote y := rfl
@[simp] theorem State.link_modColumn (h : FPort) : (s.modColumn t f).link h = s.link h := rfl

end

section
variable (s : State) (z : Zone) (f : RemoteRec → RemoteRec)

@[simp] theorem State.port_modRemote (q : Port) : (s.modRemote z f).port q = s.port q := rfl
@[simp] theorem State.tenant_modRemote (u : Tenant) : (s.modRemote z f).tenant u = s.tenant u := rfl
@[simp] theorem State.zone_modRemote (y : Zone) : (s.modRemote z f).zone y = s.zone y := rfl
@[simp] theorem State.cell_modRemote (y : Zone) (u : Tenant) : (s.modRemote z f).cell y u = s.cell y u := rfl
@[simp] theorem State.link_modRemote (h : FPort) : (s.modRemote z f).link h = s.link h := rfl

end

section
variable (s : State) (f : FPort) (g : LinkRec → LinkRec)

@[simp] theorem State.port_modLink (q : Port) : (s.modLink f g).port q = s.port q := rfl
@[simp] theorem State.tenant_modLink (u : Tenant) : (s.modLink f g).tenant u = s.tenant u := rfl
@[simp] theorem State.zone_modLink (y : Zone) : (s.modLink f g).zone y = s.zone y := rfl
@[simp] theorem State.cell_modLink (y : Zone) (u : Tenant) : (s.modLink f g).cell y u = s.cell y u := rfl
@[simp] theorem State.remote_modLink (y : Zone) : (s.modLink f g).remote y = s.remote y := rfl

end

section
variable (s : State) (z : Zone) (t : Tenant) (f : Move → Move)

@[simp] theorem State.port_modMove (q : Port) : (s.modMove z t f).port q = s.port q := rfl
@[simp] theorem State.tenant_modMove (u : Tenant) : (s.modMove z t f).tenant u = s.tenant u := rfl
@[simp] theorem State.zone_modMove (y : Zone) : (s.modMove z t f).zone y = s.zone y := rfl
@[simp] theorem State.cell_modMove (y : Zone) (u : Tenant) : (s.modMove z t f).cell y u = s.cell y u := rfl
@[simp] theorem State.remote_modMove (y : Zone) : (s.modMove z t f).remote y = s.remote y := rfl
@[simp] theorem State.link_modMove (h : FPort) : (s.modMove z t f).link h = s.link h := rfl

end

section
variable (s : State) (z : Zone) (t : Tenant)

@[simp] theorem State.port_dropMove (q : Port) : (s.dropMove z t).port q = s.port q := rfl
@[simp] theorem State.tenant_dropMove (u : Tenant) : (s.dropMove z t).tenant u = s.tenant u := rfl
@[simp] theorem State.zone_dropMove (y : Zone) : (s.dropMove z t).zone y = s.zone y := rfl
@[simp] theorem State.cell_dropMove (y : Zone) (u : Tenant) : (s.dropMove z t).cell y u = s.cell y u := rfl
@[simp] theorem State.remote_dropMove (y : Zone) : (s.dropMove z t).remote y = s.remote y := rfl
@[simp] theorem State.link_dropMove (h : FPort) : (s.dropMove z t).link h = s.link h := rfl

end

end Sys2Proof.Machine
end

