-- ==== Sys2Proof/Laws/Frames.lean ====
section
/-! SUPPORT. What each shared effect leaves as it is: the allotment passes with the SETs they owe, and an append to the
log. -/

namespace Sys2Proof

/-! ### Tables under a mask -/

theorem tmapIdx_tmod {α β : Type} {n : Nat} (f : Fin n → α → β) (v : Vector α n) (i : Fin n) (g : α → α)
    (h : f i (g (tget v i)) = f i (tget v i)) : tmapIdx f (tmod v i g) = tmapIdx f v := by
  apply table_ext
  intro j
  rw [tget_tmapIdx, tget_tmapIdx, tget_tmod]
  split
  · next e => subst e; exact h
  · rfl

theorem tmapIdx_tmapIdx {α : Type} {n : Nat} (f g : Fin n → α → α) (v : Vector α n)
    (h : ∀ i x, f i (g i x) = f i x) : tmapIdx f (tmapIdx g v) = tmapIdx f v := by
  apply table_ext
  intro j
  simp [h]

end Sys2Proof

namespace Sys2Proof.Machine

/-- A fold of steps that keep a view of the state keeps it. -/
theorem foldl_keeps {α β : Type} (view : State → β) (f : State → α → State) (h : ∀ s a, view (f s a) = view s) (l : List α)
    (s : State) : view (l.foldl f s) = view s := by
  induction l generalizing s with
  | nil => rfl
  | cons a rest ih => rw [List.foldl_cons, ih, h]

/-! ### Passes -/

/-- Everything but what allotment passes and the SETs they owe write (R33, R36, R113): the effective limit of a zone, the
request, grant and gain of a cell, the queue and the start of transmission of a link, and the mark of an owed SET. -/
def outsidePasses (s : State) : State :=
  { s with
    zones := tmapIdx (fun _ z => { z with effLimit := 0 }) s.zones
    cells := tmapIdx (fun _ row => tmapIdx (fun _ c => { c with request := 0, grant := 0, gain := 0 }) row) s.cells
    links := tmapIdx (fun _ l => { l with queue := [], sending := .nothing }) s.links
    remotes := tmapIdx (fun _ r => { r with setOwed := false }) s.remotes }

theorem outsidePasses_modLink (s : State) (f : FPort) (g : LinkRec → LinkRec)
    (h : { g (s.link f) with queue := [], sending := .nothing } = { s.link f with queue := [], sending := .nothing }) :
    outsidePasses (s.modLink f g) = outsidePasses s := by
  have e := tmapIdx_tmod (fun _ l => { l with queue := [], sending := Sending.nothing }) s.links f g h
  simp [outsidePasses, State.modLink, e]

theorem outsidePasses_modRemote (s : State) (z : Zone) (g : RemoteRec → RemoteRec)
    (h : { g (s.remote z) with setOwed := false } = { s.remote z with setOwed := false }) :
    outsidePasses (s.modRemote z g) = outsidePasses s := by
  have e := tmapIdx_tmod (fun _ r => { r with setOwed := false }) s.remotes z g h
  simp [outsidePasses, State.modRemote, e]

theorem outsidePasses_modZone (s : State) (z : Zone) (g : ZoneRec → ZoneRec)
    (h : { g (s.zone z) with effLimit := 0 } = { s.zone z with effLimit := 0 }) :
    outsidePasses (s.modZone z g) = outsidePasses s := by
  have e := tmapIdx_tmod (fun _ r => { r with effLimit := 0 }) s.zones z g h
  simp [outsidePasses, State.modZone, e]

theorem outsidePasses_modZoneCells (s : State) (z : Zone) (g : Tenant → Cell → Cell)
    (h : ∀ t c, { g t c with request := 0, grant := 0, gain := 0 } = { c with request := 0, grant := 0, gain := 0 }) :
    outsidePasses (s.modZoneCells z g) = outsidePasses s := by
  have e := tmapIdx_tmod
    (fun _ row => tmapIdx (fun _ c => { c with request := 0, grant := 0, gain := 0 }) row) s.cells z (fun row => tmapIdx g row)
    (tmapIdx_tmapIdx _ _ _ h)
  simp [outsidePasses, State.modZoneCells, e]

theorem outsidePasses_startQueued (f : FPort) (s : State) : outsidePasses (startQueued f s) = outsidePasses s := by
  unfold startQueued
  simp only []
  split
  · exact outsidePasses_modLink _ _ _ rfl
  · rfl

theorem outsidePasses_queueSet (z : Zone) (s : State) : outsidePasses (queueSet z s) = outsidePasses s := by
  unfold queueSet
  split
  · rfl
  · next b _ =>
    simp only []
    split
    · exact outsidePasses_modLink _ _ _ rfl
    · split
      · rw [outsidePasses_startQueued, outsidePasses_modRemote _ _ _ rfl, outsidePasses_modLink _ _ _ rfl]
      · exact outsidePasses_modRemote _ _ _ rfl

theorem outsidePasses_passResults (z : Zone) (s : State) : outsidePasses (passResults z s) = outsidePasses s := by
  have a := outsidePasses_modZone s z (fun r => { r with effLimit := effLimitOf s z }) rfl
  rw [← a]
  exact outsidePasses_modZoneCells _ z
    (fun t c =>
      { c with
        request := requestOf s z t
        grant := zoneGrant s z (effLimitOf s z) t
        gain := gainOf (requestOf s z t) (zoneGrant s z (effLimitOf s z) t) })
    fun _ _ => rfl

theorem outsidePasses_pass (z : Zone) (s : State) : outsidePasses (pass z s) = outsidePasses s := by
  unfold pass
  simp only []
  split
  · exact outsidePasses_passResults z s
  · rw [outsidePasses_queueSet, outsidePasses_passResults]

theorem outsidePasses_passes (sel : Zone → Bool) (s : State) : outsidePasses (passes sel s) = outsidePasses s :=
  foldl_keeps outsidePasses _ (fun s z => outsidePasses_pass z s) _ s

/-! ### The log -/

theorem outsideLog_evalLog (p : Port) (s : State) : outsideLog (evalLog p s) = outsideLog s := by
  have e := tmapIdx_tmod (fun _ q => { q with log := false }) s.ports (portIdx p)
    (fun q => { q with log := logReasonOf s p }) rfl
  simp only [outsideLog, evalLog, State.modPort, e]

theorem outsideLog_evalLogAll (s : State) : outsideLog (evalLogAll s) = outsideLog s :=
  foldl_keeps outsideLog _ (fun s p => outsideLog_evalLog p s) _ s

theorem outsideLog_discardOldest (s : State) : outsideLog (discardOldest s) = outsideLog s := by
  unfold discardOldest
  split
  · rfl
  · split <;> rfl

theorem outsideLog_appendLog (e : Entry) (s : State) : outsideLog (appendLog e s) = outsideLog s := by
  unfold appendLog
  simp only []
  rw [outsideLog_evalLogAll]
  exact outsideLog_discardOldest s

end Sys2Proof.Machine
end

