-- ==== Sys2Proof/Laws/Passes.lean ====
section
/-! SUPPORT. What an allotment pass, and the passes of one event, do: the results are what their inputs give, the SETs
owed are queued, and nothing else changes. -/

namespace Sys2Proof.Machine

/-! ### The reads of a masked state -/

theorem outsidePasses_zone (s : State) (z : Zone) :
    (outsidePasses s).zone z = { s.zone z with effLimit := 0 } := by simp [State.zone, outsidePasses]

theorem outsidePasses_cell (s : State) (z : Zone) (t : Tenant) :
    (outsidePasses s).cell z t = { s.cell z t with request := 0, grant := 0, gain := 0 } := by
  simp [State.cell, outsidePasses]

theorem outsidePasses_remote (s : State) (z : Zone) :
    (outsidePasses s).remote z = { s.remote z with setOwed := false } := by simp [State.remote, outsidePasses]

/-! ### The inputs of a pass lie outside its results -/

theorem inService_outside (s : State) (z : Zone) : inService (outsidePasses s) z = inService s z := by
  simp [inService, outsidePasses_remote]

theorem dimmed_outside (s : State) (z : Zone) : dimmed (outsidePasses s) z = dimmed s z := by
  simp only [dimmed, outsidePasses_zone]
  rfl

theorem derateFactor_outside (s : State) (z : Zone) : derateFactor (outsidePasses s) z = derateFactor s z := by
  simp only [derateFactor, outsidePasses_remote]
  rfl

theorem effLimitOf_outside (s : State) (z : Zone) : effLimitOf (outsidePasses s) z = effLimitOf s z := by
  simp only [effLimitOf, inService_outside, dimmed_outside, derateFactor_outside, outsidePasses_zone]

theorem requestOf_outside (s : State) (z : Zone) (t : Tenant) : requestOf (outsidePasses s) z t = requestOf s z t := by
  simp only [requestOf, outsidePasses_cell]
  rfl

theorem zoneGrant_outside (s : State) (z : Zone) (eff : Nat) (t : Tenant) :
    zoneGrant (outsidePasses s) z eff t = zoneGrant s z eff t := by
  have h : requestOf (outsidePasses s) z = requestOf s z := funext (requestOf_outside s z)
  simp only [zoneGrant, h]
  rfl

theorem effLimitOf_congr {s t : State} (h : outsidePasses t = outsidePasses s) (z : Zone) :
    effLimitOf t z = effLimitOf s z := by rw [← effLimitOf_outside t, h, effLimitOf_outside]

theorem requestOf_congr {s t : State} (h : outsidePasses t = outsidePasses s) (z : Zone) (u : Tenant) :
    requestOf t z u = requestOf s z u := by rw [← requestOf_outside t, h, requestOf_outside]

theorem zoneGrant_congr {s t : State} (h : outsidePasses t = outsidePasses s) (z : Zone) (e : Nat) (u : Tenant) :
    zoneGrant t z e u = zoneGrant s z e u := by rw [← zoneGrant_outside t, h, zoneGrant_outside]

/-! ### Queueing a SET -/

theorem startQueued_eq (f : FPort) (s : State) : startQueued f s = { s with links := (startQueued f s).links } := by
  unfold startQueued
  simp only []
  split <;> rfl

theorem startQueued_congr {f : FPort} {s t : State} (h1 : t.starting = s.starting) (h2 : t.links = s.links) :
    (startQueued f t).links = (startQueued f s).links := by
  have e : t.link f = s.link f := by simp only [State.link, h2]
  unfold startQueued
  simp only [h1, e]
  split
  · simp only [State.modLink, h2]
  · exact h2

theorem startQueued_link_ne {f g : FPort} (h : f ≠ g) (s : State) : (startQueued f s).link g = s.link g := by
  unfold startQueued
  simp only []
  split
  · exact State.link_modLink_ne _ _ _ _ h
  · rfl

/-- Queueing a SET changes links and remote records alone. -/
theorem queueSet_eq (z : Zone) (s : State) :
    queueSet z s = { s with links := (queueSet z s).links, remotes := (queueSet z s).remotes } := by
  unfold queueSet
  split
  · rfl
  · simp only []
    split
    · rfl
    · split
      · rw [startQueued_eq]
        rfl
      · rfl

theorem queueSet_zones (z : Zone) (s : State) : (queueSet z s).zones = s.zones := by rw [queueSet_eq]
theorem queueSet_cells (z : Zone) (s : State) : (queueSet z s).cells = s.cells := by rw [queueSet_eq]
theorem queueSet_ports (z : Zone) (s : State) : (queueSet z s).ports = s.ports := by rw [queueSet_eq]
theorem queueSet_moves (z : Zone) (s : State) : (queueSet z s).moves = s.moves := by rw [queueSet_eq]

/-- What queueing a SET reads: start-up, the links, the remote records and the record of its zone. -/
theorem queueSet_congr {z : Zone} {s t : State} (h1 : t.starting = s.starting) (h2 : t.links = s.links)
    (h3 : t.remotes = s.remotes) (h4 : t.zone z = s.zone z) :
    (queueSet z t).links = (queueSet z s).links ∧ (queueSet z t).remotes = (queueSet z s).remotes := by
  have e1 : muteOf t z = muteOf s z := by simp only [muteOf, State.remote, h3]
  have e2 : ∀ f, t.link f = s.link f := fun f => by simp only [State.link, h2]
  unfold queueSet
  simp only [h4, e1, e2]
  split
  · exact ⟨h2, h3⟩
  · split
    · exact ⟨by simp only [State.modLink, h2], h3⟩
    · split
      · refine ⟨startQueued_congr h1 (by simp only [State.modRemote, State.modLink, h2]), ?_⟩
        have hr : ∀ (f : FPort) (x : State), (startQueued f x).remotes = x.remotes := fun f x => by rw [startQueued_eq]
        rw [hr, hr]
        simp only [State.modRemote, State.modLink, h3]
      · exact ⟨h2, by simp only [State.modRemote, h3]⟩

/-- A zone without a binding is owed no SET (R36). -/
theorem queueSet_unbound {z : Zone} {s : State} (h : (s.zone z).binding = none) : queueSet z s = s := by
  unfold queueSet
  rw [h]

/-- Queueing a SET of a zone touches the link of its port alone. -/
theorem queueSet_link (z : Zone) (s : State) (f : FPort) (h : (s.zone z).binding.map Binding.port ≠ some f) :
    (queueSet z s).link f = s.link f := by
  unfold queueSet
  split
  · rfl
  · next b hb =>
    have hne : b.port ≠ f := by
      intro e
      exact h (by simp [hb, e])
    simp only []
    split
    · exact State.link_modLink_ne _ _ _ _ hne
    · split
      · rw [startQueued_link_ne hne]
        exact State.link_modLink_ne _ _ _ _ hne
      · rfl

/-- Queueing a SET of a zone touches the record of its remote alone. -/
theorem queueSet_remote_ne {z y : Zone} (h : z ≠ y) (s : State) : (queueSet z s).remote y = s.remote y := by
  unfold queueSet
  split
  · rfl
  · simp only []
    split
    · rfl
    · split
      · rw [startQueued_eq]
        exact State.remote_modRemote_ne _ _ _ _ h
      · exact State.remote_modRemote_ne _ _ _ _ h

/-! ### The results of a pass -/

theorem passResults_zone (z : Zone) (s : State) (y : Zone) :
    (passResults z s).zone y = if z = y then { s.zone y with effLimit := effLimitOf s z } else s.zone y := by
  simp only [passResults, State.zone, State.modZoneCells_zones, State.modZone, tget_tmod]

theorem passResults_cell (z : Zone) (s : State) (y : Zone) (t : Tenant) :
    (passResults z s).cell y t =
      if z = y then
        { s.cell y t with
          request := requestOf s z t
          grant := zoneGrant s z (effLimitOf s z) t
          gain := gainOf (requestOf s z t) (zoneGrant s z (effLimitOf s z) t) }
      else s.cell y t := by
  simp only [passResults, State.cell_modZoneCells]
  rfl

theorem results_refl (s : State) : Results (fun _ => False) s s :=
  ⟨rfl, fun _ h => h.elim, fun _ _ => ⟨rfl, fun _ => rfl⟩⟩

/-- R33: one pass, but for the SET it owes. -/
theorem passResults_results (z : Zone) (s : State) : Results (fun y => y = z) s (passResults z s) := by
  refine ⟨rfl, ?_, ?_⟩
  · rintro y rfl
    exact ⟨by rw [passResults_zone, if_pos rfl], fun u => by rw [passResults_cell, if_pos rfl]⟩
  · intro y hy
    have hne : ¬ z = y := fun e => hy e.symm
    exact ⟨by rw [passResults_zone, if_neg hne], fun u => by rw [passResults_cell, if_neg hne]⟩

theorem Results.outside {sel : Zone → Prop} {s t : State} (h : Results sel s t) : outsidePasses t = outsidePasses s := by
  obtain ⟨h1, h2, h3⟩ := h
  have hz : ∀ z, { t.zone z with effLimit := 0 } = { s.zone z with effLimit := 0 } := fun z => by
    by_cases e : sel z
    · rw [(h2 z e).1]
    · rw [(h3 z e).1]
  have hc : ∀ z u,
      { t.cell z u with request := 0, grant := 0, gain := 0 } = { s.cell z u with request := 0, grant := 0, gain := 0 } :=
    fun z u => by
      by_cases e : sel z
      · rw [(h2 z e).2 u]
      · rw [(h3 z e).2 u]
  have ez : tmapIdx (fun _ z => { z with effLimit := 0 }) t.zones = tmapIdx (fun _ z => { z with effLimit := 0 }) s.zones :=
    table_ext _ _ fun z => by
      simp only [tget_tmapIdx]
      exact hz z
  have ec : tmapIdx (fun _ row => tmapIdx (fun _ c => { c with request := 0, grant := 0, gain := 0 }) row) t.cells =
      tmapIdx (fun _ row => tmapIdx (fun _ c => { c with request := 0, grant := 0, gain := 0 }) row) s.cells :=
    table_ext _ _ fun z => table_ext _ _ fun u => by
      simp only [tget_tmapIdx]
      exact hc z u
  simp only [outsidePasses, ez, ec]
  rw [h1]

/-- Results after results: the inputs do not change, so they are those of the state before both. -/
theorem Results.trans {A B : Zone → Prop} {s t u : State} (h : Results A s t) (k : Results B t u) :
    Results (fun z => A z ∨ B z) s u := by
  have eff := effLimitOf_congr h.outside
  have req := requestOf_congr h.outside
  have grant := zoneGrant_congr h.outside
  obtain ⟨h1, h2, h3⟩ := h
  obtain ⟨k1, k2, k3⟩ := k
  refine ⟨by rw [k1, h1], ?_, ?_⟩
  · intro z hz
    by_cases hb : B z
    · obtain ⟨e1, e2⟩ := k2 z hb
      by_cases ha : A z
      · refine ⟨by rw [e1, (h2 z ha).1, eff], fun v => ?_⟩
        rw [e2 v, (h2 z ha).2 v, eff, req, grant]
      · refine ⟨by rw [e1, (h3 z ha).1, eff], fun v => ?_⟩
        rw [e2 v, (h3 z ha).2 v, eff, req, grant]
    · obtain ⟨e1, e2⟩ := k3 z hb
      have ha := hz.resolve_right hb
      exact ⟨e1.trans (h2 z ha).1, fun v => (e2 v).trans ((h2 z ha).2 v)⟩
  · intro z hz
    have ha : ¬ A z := fun x => hz (.inl x)
    have hb : ¬ B z := fun x => hz (.inr x)
    exact ⟨(k3 z hb).1.trans (h3 z ha).1, fun v => ((k3 z hb).2 v).trans ((h3 z ha).2 v)⟩

theorem results_congr {A B : Zone → Prop} {s t : State} (h : Results A s t) (e : ∀ z, A z ↔ B z) : Results B s t := by
  have : A = B := funext fun z => propext (e z)
  exact this ▸ h

theorem results_foldl (l : List Zone) (s : State) :
    Results (fun z => z ∈ l) s (l.foldl (fun a z => passResults z a) s) := by
  induction l generalizing s with
  | nil => exact results_congr (results_refl s) (by simp)
  | cons z rest ih =>
    rw [List.foldl_cons]
    exact results_congr ((passResults_results z s).trans (ih _)) (by simp)

/-! ### Passes -/

/-- R36: a pass at the zone owes a SET. -/
def owes (s : State) (z : Zone) : Bool := (s.zone z).binding.isSome && effLimitOf s z != (s.zone z).effLimit

theorem pass_eq (z : Zone) (s : State) : pass z s = if owes s z then queueSet z (passResults z s) else passResults z s := by
  have hz : (passResults z s).zone z = { s.zone z with effLimit := effLimitOf s z } := by
    rw [passResults_zone, if_pos rfl]
  unfold Sys2Proof.Machine.pass owes
  simp only [hz]
  cases hb : (s.zone z).binding with
  | none =>
    have : queueSet z (passResults z s) = passResults z s := queueSet_unbound (by rw [hz]; exact hb)
    simp [this]
  | some b =>
    by_cases e : effLimitOf s z = (s.zone z).effLimit <;> simp [e]

theorem owes_congr {s t : State} (h : outsidePasses t = outsidePasses s) {z : Zone} (hz : t.zone z = s.zone z) :
    owes t z = owes s z := by simp only [owes, hz, effLimitOf_congr h]

/-- The results of a zone and the SET of another do not meet. -/
theorem passResults_queueSet {y z : Zone} (h : y ≠ z) (s : State) :
    passResults z (queueSet y s) = queueSet y (passResults z s) := by
  have hz : (passResults z s).zone y = s.zone y := by rw [passResults_zone, if_neg (Ne.symm h)]
  obtain ⟨e1, e2⟩ := queueSet_congr (z := y) (s := s) (t := passResults z s) rfl rfl rfl hz
  have ho := outsidePasses_queueSet y s
  have eff := effLimitOf_congr ho z
  have req := requestOf_congr ho z
  have grant := zoneGrant_congr ho z
  rw [queueSet_eq y (passResults z s), e1, e2]
  simp only [passResults, eff, req, grant]
  rw [queueSet_eq y s]
  rfl

theorem passResults_foldl_queueSet {y : Zone} (l : List Zone) (h : y ∉ l) (s : State) :
    l.foldl (fun a z => passResults z a) (queueSet y s) = queueSet y (l.foldl (fun a z => passResults z a) s) := by
  induction l generalizing s with
  | nil => rfl
  | cons z rest ih =>
    rw [List.foldl_cons, List.foldl_cons, passResults_queueSet (fun e => h (by simp [e])),
      ih (fun e => h (List.mem_cons_of_mem _ e))]

/-- R34 to R36: passes at several zones: their results, and then the SETs they owe. -/
theorem passes_foldl (l : List Zone) (hl : l.Nodup) (s : State) :
    l.foldl (fun a z => pass z a) s =
      (l.filter (owes s)).foldl (fun a z => queueSet z a) (l.foldl (fun a z => passResults z a) s) := by
  induction l generalizing s with
  | nil => rfl
  | cons z rest ih =>
    obtain ⟨hz, hr⟩ := List.nodup_cons.mp hl
    have hf : rest.filter (owes (pass z s)) = rest.filter (owes s) := by
      refine List.filter_congr fun y hy => owes_congr (outsidePasses_pass z s) ?_
      have hne : z ≠ y := fun e => hz (e ▸ hy)
      have hp : (passResults z s).zone y = s.zone y := by rw [passResults_zone, if_neg hne]
      rw [pass_eq]
      split
      · exact (congrArg (fun v => tget v y) (queueSet_zones z _)).trans hp
      · exact hp
    rw [List.foldl_cons, ih hr, hf, List.foldl_cons, pass_eq]
    cases ho : owes s z with
    | true =>
      simp only [if_true, List.filter_cons, ho, List.foldl_cons]
      rw [passResults_foldl_queueSet rest hz]
    | false => simp [ho]

theorem byPosition_of_pairwise {s : State} {l : List Zone} (f : Zone → Bool) (h : ByPosition s l) :
    ByPosition s (l.filter f) := List.Pairwise.sublist List.filter_sublist h

/-- R34 to R36: the passes of a list of zones in position order. -/
theorem passed_foldl (l : List Zone) (hl : l.Nodup) (s : State) (hp : ByPosition s l) :
    Passed (fun z => z ∈ l) s (l.foldl (fun a z => pass z a) s) :=
  ⟨l.foldl (fun a z => passResults z a) s, l.filter (owes s), results_foldl l s, passes_foldl l hl s, hl.filter _,
    byPosition_of_pairwise _ hp, fun z => by simp [owes, Option.isSome_iff_ne_none]⟩

theorem passed_congr {A B : Zone → Prop} {s t : State} (h : Passed A s t) (e : ∀ z, A z ↔ B z) : Passed B s t := by
  have : A = B := funext fun z => propext (e z)
  exact this ▸ h

theorem passed_refl (s : State) : Passed (fun _ => False) s s :=
  passed_congr (passed_foldl [] .nil s .nil) (by simp)

/-- R33, R36: one pass. -/
theorem pass_passed (z : Zone) (s : State) : Passed (fun y => y = z) s (pass z s) :=
  passed_congr (passed_foldl [z] (List.nodup_singleton z) s (List.pairwise_singleton _ _)) (by simp)

/-! ### The order of passes -/

/-- Every zone has its place in the order of passes. -/
theorem mem_passOrder (s : State) (z : Zone) : z ∈ passOrder s := by
  unfold passOrder
  have hall : z ∈ allZones := List.mem_finRange z
  cases h : (s.zone z).binding with
  | none =>
    apply List.mem_append_right
    simp [h, hall]
  | some b =>
    apply List.mem_append_left
    rw [List.mem_flatMap]
    refine ⟨b.pos, ?_, by simp [h, hall]⟩
    generalize b.pos = p
    revert p
    decide

/-- The zones of one position, or those with none, each once. -/
theorem allZones_filter_nodup (f : Zone → Bool) : (allZones.filter f).Nodup := (List.nodup_finRange 48).filter _

/-- The place of a zone in the order of passes: its position, or behind them all. -/
def passRank (s : State) (z : Zone) : Nat :=
  match (s.zone z).binding with
  | some b => b.pos.val
  | none => 4

theorem passOrder_parts (s : State) : passOrder s =
    (List.range 5).flatMap fun k => allZones.filter fun z => passRank s z == k := by
  have hp : ∀ p : Pos, (allZones.filter fun z => ((s.zone z).binding.map Binding.pos) == some p) =
      allZones.filter fun z => passRank s z == p.val := fun p => by
    refine List.filter_congr fun z _ => ?_
    unfold passRank
    cases (s.zone z).binding with
    | none =>
      have : ¬ 4 = p.val := by omega
      simp [this]
    | some b => simp [Fin.ext_iff]
  have hn : (allZones.filter fun z => (s.zone z).binding.isNone) = allZones.filter fun z => passRank s z == 4 := by
    refine List.filter_congr fun z _ => ?_
    unfold passRank
    cases (s.zone z).binding with
    | none => rfl
    | some b =>
      have : ¬ b.pos.val = 4 := by omega
      simp [this]
  have hr : List.range 5 = [0, 1, 2, 3, 4] := rfl
  rw [passOrder, hn, hr]
  simp [allPositions, hp]

theorem passOrder_pairwise (s : State) (l : List Nat) (hl : l.Pairwise fun a b => a < b) :
    (l.flatMap fun k => allZones.filter fun z => passRank s z == k).Pairwise
      fun y z => y ≠ z ∧ passRank s y ≤ passRank s z := by
  refine List.pairwise_flatMap.mpr ⟨fun k _ => ?_, hl.imp fun {a b} hab => ?_⟩
  · have h := allZones_filter_nodup fun z => passRank s z == k
    refine (List.pairwise_and_iff.mpr ⟨h, List.pairwise_of_forall_mem_list fun y hy z hz => ?_⟩)
    simp only [List.mem_filter, beq_iff_eq] at hy hz
    omega
  · intro y hy z hz
    simp only [List.mem_filter, beq_iff_eq] at hy hz
    refine ⟨fun e => ?_, by omega⟩
    rw [e] at hy
    omega

theorem passOrder_nodup (s : State) : (passOrder s).Nodup := by
  rw [passOrder_parts]
  exact (passOrder_pairwise s _ (by decide)).imp And.left

theorem passOrder_byPosition (s : State) : ByPosition s (passOrder s) := by
  rw [passOrder_parts]
  refine (passOrder_pairwise s _ (by decide)).imp fun {y z} h b c hb hc _ => ?_
  have := h.2
  simp only [passRank, hb, hc] at this
  exact this

/-- R34: the passes of one event. -/
theorem passes_passed (sel : Zone → Bool) (s : State) : Passed (fun z => sel z = true) s (passes sel s) :=
  passed_congr
    (passed_foldl ((passOrder s).filter sel) ((passOrder_nodup s).filter _) s
      (byPosition_of_pairwise sel (passOrder_byPosition s)))
    fun z => by simp [mem_passOrder]

theorem passAll_passed (s : State) : Passed (fun _ => True) s (passAll s) :=
  passed_congr (passes_passed _ s) (by simp)

/-! ### What passes leave -/

theorem foldl_queueSet_eq (zs : List Zone) (s : State) :
    zs.foldl (fun a z => queueSet z a) s =
      { s with
        links := (zs.foldl (fun a z => queueSet z a) s).links
        remotes := (zs.foldl (fun a z => queueSet z a) s).remotes } := by
  induction zs generalizing s with
  | nil => rfl
  | cons z rest ih =>
    rw [List.foldl_cons, ih, queueSet_eq z s]

theorem Passed.outside {sel : Zone → Prop} {s t : State} (h : Passed sel s t) : outsidePasses t = outsidePasses s := by
  obtain ⟨r, zs, hr, rfl, _⟩ := h
  rw [← hr.outside]
  exact foldl_keeps outsidePasses _ (fun a z => outsidePasses_queueSet z a) zs r

/-- Passes change zones, cells, links and remote records alone. -/
theorem Passed.eq {sel : Zone → Prop} {s t : State} (h : Passed sel s t) :
    t = { s with zones := t.zones, cells := t.cells, links := t.links, remotes := t.remotes } := by
  obtain ⟨r, zs, hr, rfl, _⟩ := h
  rw [foldl_queueSet_eq, hr.1]

theorem Passed.moves {sel : Zone → Prop} {s t : State} (h : Passed sel s t) : t.moves = s.moves := by rw [h.eq]
theorem Passed.ports {sel : Zone → Prop} {s t : State} (h : Passed sel s t) : t.ports = s.ports := by rw [h.eq]
theorem Passed.tenants {sel : Zone → Prop} {s t : State} (h : Passed sel s t) : t.tenants = s.tenants := by rw [h.eq]

/-- R33: the results that passes leave. -/
theorem Passed.results {sel : Zone → Prop} {s t : State} (h : Passed sel s t) :
    (∀ z, sel z → t.zone z = { s.zone z with effLimit := effLimitOf s z } ∧
      ∀ u, t.cell z u =
        { s.cell z u with
          request := requestOf s z u
          grant := zoneGrant s z (effLimitOf s z) u
          gain := gainOf (requestOf s z u) (zoneGrant s z (effLimitOf s z) u) }) ∧
      ∀ z, ¬ sel z → t.zone z = s.zone z ∧ ∀ u, t.cell z u = s.cell z u := by
  obtain ⟨r, zs, hr, rfl, _⟩ := h
  rw [foldl_queueSet_eq]
  exact ⟨hr.2.1, hr.2.2⟩

/-- R36: passes that change no effective limit of a port's zones leave its link as it was. -/
theorem Passed.link {sel : Zone → Prop} {s t : State} (h : Passed sel s t) (f : FPort)
    (hf : ∀ z, sel z → (s.zone z).binding.map Binding.port = some f → effLimitOf s z = (s.zone z).effLimit) :
    t.link f = s.link f := by
  obtain ⟨r, zs, hr, rfl, hn, hp, hz⟩ := h
  clear hn hp
  have hl : r.link f = s.link f := by rw [hr.1]; rfl
  have hb : ∀ z, (r.zone z).binding = (s.zone z).binding := fun z => by
    by_cases e : sel z
    · rw [(hr.2.1 z e).1]
    · rw [(hr.2.2 z e).1]
  rw [← hl]
  have key : ∀ z ∈ zs, (r.zone z).binding.map Binding.port ≠ some f := fun z hm e => by
    obtain ⟨h1, _, h3⟩ := (hz z).mp hm
    rw [hb] at e
    exact h3 (hf z h1 e)
  clear hz hl hr hb
  induction zs generalizing r with
  | nil => rfl
  | cons z rest ih =>
    rw [List.foldl_cons, ih _ fun y hy => ?_, queueSet_link z r f (key z (by simp))]
    have : (queueSet z r).zone y = r.zone y := congrArg (fun v => tget v y) (queueSet_zones z r)
    rw [this]
    exact key y (List.mem_cons_of_mem _ hy)

/-- R36, R114: a remote record whose zone has no changed effective limit stays as it is. -/
theorem Passed.remote {sel : Zone → Prop} {s t : State} (h : Passed sel s t) (z : Zone)
    (hz : ¬ (sel z ∧ (s.zone z).binding ≠ none ∧ effLimitOf s z ≠ (s.zone z).effLimit)) : t.remote z = s.remote z := by
  obtain ⟨r, zs, hr, rfl, hn, hp, hm⟩ := h
  clear hn hp
  have hl : r.remote z = s.remote z := by rw [hr.1]; rfl
  rw [← hl]
  have key : z ∉ zs := fun e => hz ((hm z).mp e)
  clear hm hl hr hz
  induction zs generalizing r with
  | nil => rfl
  | cons y rest ih =>
    rw [List.foldl_cons, ih _ (fun e => key (List.mem_cons_of_mem _ e)), queueSet_remote_ne (fun e => key (by simp [e]))]

/-! ### Passes and ports: a change of a port's record and a pass commute -/

theorem startQueued_modPort (f : FPort) (s : State) (p : Port) (g : PortRec → PortRec) :
    startQueued f (s.modPort p g) = (startQueued f s).modPort p g := by
  have e : (s.modPort p g).link f = s.link f := rfl
  simp only [startQueued, e, State.modPort_starting]
  split <;> rfl

theorem queueSet_modPort (z : Zone) (s : State) (p : Port) (g : PortRec → PortRec) :
    queueSet z (s.modPort p g) = (queueSet z s).modPort p g := by
  unfold queueSet
  have e : (s.modPort p g).zone z = s.zone z := rfl
  have e2 : ∀ f, (s.modPort p g).link f = s.link f := fun _ => rfl
  have e3 : muteOf (s.modPort p g) z = muteOf s z := rfl
  simp only [e, e2, e3]
  split
  · rfl
  · split
    · rfl
    · split
      · next b _ _ _ =>
        exact startQueued_modPort b.port
          ((s.modLink b.port fun l => { l with queue := l.queue ++ [.set b.pos (s.zone z).effLimit (muteOf s z)] }).modRemote z
            fun r => { r with setOwed := false }) p g
      · rfl

theorem pass_modPort (z : Zone) (s : State) (p : Port) (g : PortRec → PortRec) :
    pass z (s.modPort p g) = (pass z s).modPort p g := by
  have h : passResults z (s.modPort p g) = (passResults z s).modPort p g := rfl
  have e : ∀ x : State, (x.modPort p g).zone z = x.zone z := fun _ => rfl
  unfold Sys2Proof.Machine.pass
  simp only [h, e]
  split
  · rfl
  · exact queueSet_modPort _ _ _ _

/-- A change of a port, after the results as before them. -/
theorem Results.modPort {sel : Zone → Prop} {s t : State} (h : Results sel s t) (p : Port) (g : PortRec → PortRec) :
    Results sel (s.modPort p g) (t.modPort p g) := by
  obtain ⟨h1, h2, h3⟩ := h
  exact ⟨by rw [h1]; rfl, h2, h3⟩

theorem foldl_queueSet_modPort (zs : List Zone) (s : State) (p : Port) (g : PortRec → PortRec) :
    zs.foldl (fun a z => queueSet z a) (s.modPort p g) = (zs.foldl (fun a z => queueSet z a) s).modPort p g := by
  induction zs generalizing s with
  | nil => rfl
  | cons z rest ih => rw [List.foldl_cons, List.foldl_cons, queueSet_modPort, ih]

/-- A change of a port, after the passes as before them. -/
theorem Passed.modPort {sel : Zone → Prop} {s t : State} (h : Passed sel s t) (p : Port) (g : PortRec → PortRec) :
    Passed sel (s.modPort p g) (t.modPort p g) := by
  obtain ⟨r, zs, hr, rfl, hn, hp, hz⟩ := h
  exact ⟨r.modPort p g, zs, hr.modPort p g, (foldl_queueSet_modPort zs r p g).symm, hn, hp, hz⟩

theorem Passed.setResult {sel : Zone → Prop} {s t : State} (h : Passed sel s t) (p : Port) (r : Result) :
    Passed sel (setResult p r s) (setResult p r t) := Passed.modPort h p _

end Sys2Proof.Machine
end

