-- ==== Sys2Proof/Laws/Close.lean ====
section
/-! SUPPORT. What the close of an event does: admission, ramp slots and MOVES_IDLE. -/

namespace Sys2Proof.Machine

/-! ### The moves of a cell -/

/-- What the close of an event may do to a move. -/
abbrev Started (m n : Move) : Prop := n = m ∨ (m.state = .waiting ∧ n = { m with state := .ramping })

theorem started_key {m n : Move} (h : Started m n) : n.zone = m.zone ∧ n.tenant = m.tenant := by
  rcases h with h | ⟨_, h⟩ <;> subst h <;> exact ⟨rfl, rfl⟩

theorem started_trans {l m n : Move} (h : Started l m) (k : Started m n) : Started l n := by
  rcases h with h | ⟨hw, h⟩ <;> rcases k with k | ⟨kw, k⟩ <;> subst h <;> subst k
  · exact .inl rfl
  · exact .inr ⟨kw, rfl⟩
  · exact .inr ⟨hw, rfl⟩
  · cases kw

theorem started_refl_list (l : List Move) : List.Forall₂ Started l l :=
  List.forall₂_same.mpr fun _ _ => .inl rfl

theorem forall₂_trans_started {a b c : List Move} (h : List.Forall₂ Started a b) (k : List.Forall₂ Started b c) :
    List.Forall₂ Started a c := by
  induction h generalizing c with
  | nil => cases k; exact .nil
  | cons h1 _ ih =>
    cases k with
    | cons k1 k2 => exact .cons (started_trans h1 k1) (ih k2)

/-! ### Admission -/

/-- R45, R46: an admission changes the Move Queue and the admission position alone. -/
theorem admitNext_eq (s : State) : admitNext s = { s with moves := (admitNext s).moves, admitPos := (admitNext s).admitPos } := by
  unfold admitNext
  split <;> rfl

theorem admitNext_none {s : State} (h : nextAdmission s = none) : admitNext s = s := by
  unfold admitNext
  rw [h]

theorem admitNext_some {s : State} {t : Tenant} {z : Zone} (h : nextAdmission s = some (t, z)) :
    admitNext s = { s with moves := s.moves ++ [newMove s z t], admitPos := t } := by
  unfold admitNext
  rw [h]

theorem iterate_admitNext_eq (n : Nat) (s : State) :
    admitNext^[n] s = { s with moves := (admitNext^[n] s).moves, admitPos := (admitNext^[n] s).admitPos } := by
  induction n generalizing s with
  | zero => rfl
  | succ n ih =>
    rw [Function.iterate_succ_apply, ih, admitNext_eq s]

/-- R46: the admissions of one event are admissions one after another. -/
theorem admitPending_iterate (n : Nat) (s : State) : ∃ k, k ≤ n ∧ admitPending n s = admitNext^[k] s := by
  induction n generalizing s with
  | zero => exact ⟨0, Nat.le_refl 0, rfl⟩
  | succ n ih =>
    unfold admitPending
    split
    · exact ⟨0, Nat.zero_le _, rfl⟩
    · obtain ⟨k, hk, e⟩ := ih (admitNext s)
      exact ⟨k + 1, Nat.succ_le_succ hk, by rw [e, Function.iterate_succ_apply]⟩

/-! ### Ramp slots -/

/-- R49: a move that starts RAMPING changes the Move Queue alone. -/
theorem startRamping_eq (m : Move) (s : State) : startRamping m s = { s with moves := (startRamping m s).moves } := rfl

theorem startRamping_started (m : Move) (s : State) : List.Forall₂ Started s.moves (startRamping m s).moves := by
  refine List.forall₂_map_right_iff.mpr (List.forall₂_same.mpr fun n _ => ?_)
  split
  · cases hs : n.state with
    | waiting => exact .inr ⟨hs, rfl⟩
    | ramping =>
      refine .inl ?_
      rw [← hs]
  · exact .inl rfl

/-- R49: slot granting starts WAITING moves and changes nothing else. -/
theorem grantSlots_started (n : Nat) (s : State) :
    grantSlots n s = { s with moves := (grantSlots n s).moves } ∧ List.Forall₂ Started s.moves (grantSlots n s).moves := by
  induction n generalizing s with
  | zero => exact ⟨rfl, started_refl_list _⟩
  | succ n ih =>
    unfold grantSlots
    split
    · split
      · next m _ =>
        obtain ⟨h1, h2⟩ := ih (startRamping m s)
        refine ⟨?_, forall₂_trans_started (startRamping_started m s) h2⟩
        rw [h1, startRamping_eq m s]
      · exact ⟨rfl, started_refl_list _⟩
    · exact ⟨rfl, started_refl_list _⟩

/-! ### Settling -/

/-- Nothing is admitted and nothing starts. -/
theorem settledBy_zero (s : State) : SettledBy 0 s s :=
  ⟨started_refl_list _, passed_congr (passed_refl s) (by simp)⟩

/-- R49: slot granting with its passes, after `n` admissions. -/
theorem grantAndPass_settledBy (n : Nat) (s : State) : SettledBy n s (grantAndPass (admitNext^[n] s)) := by
  let a := admitNext^[n] s
  let g := grantSlots 8 a
  obtain ⟨h1, h2⟩ := grantSlots_started 8 a
  have hp : Passed (fun z => (zoneMoves g z != zoneMoves a z) = true) g (grantAndPass a) := passes_passed _ g
  have hm : (grantAndPass a).moves = g.moves := hp.moves
  refine ⟨by rw [hm]; exact h2, ?_⟩
  have hg : { a with moves := (grantAndPass a).moves } = g := by rw [hm]; exact h1.symm
  rw [hm] at hg ⊢
  rw [hg]
  refine passed_congr hp fun z => ?_
  rw [bne_iff_ne]
  exact ne_comm

/-- R47, R49, R55: what settling does. -/
theorem settle_settledBy (s : State) : ∃ n, n ≤ 32 ∧ SettledBy n s (settle s) := by
  obtain ⟨n, hn, e⟩ := admitPending_iterate 32 s
  refine ⟨n, hn, ?_⟩
  rw [settle, e]
  exact grantAndPass_settledBy n s

theorem SettledBy.ports {n : Nat} {s t : State} (h : SettledBy n s t) : t.ports = s.ports := by
  have e : t.ports = (admitNext^[n] s).ports := h.2.ports
  rw [e, iterate_admitNext_eq]

theorem SettledBy.tenants {n : Nat} {s t : State} (h : SettledBy n s t) : t.tenants = s.tenants := by
  have e : t.tenants = (admitNext^[n] s).tenants := h.2.tenants
  rw [e, iterate_admitNext_eq]

/-! ### MOVES_IDLE (R65) -/

theorem hasWork_congr {s t : State} (hm : t.moves = s.moves) (hc : t.cells = s.cells) (u : Tenant) :
    hasWork t u = hasWork s u := by simp only [hasWork, pendingCell, moveAt, State.cell, hm, hc]

theorem gainMovesIdle_port (t u : Tenant) (s : State) :
    ((gainMovesIdle t s).port (.tenant u)).movesIdle = ((s.port (.tenant u)).movesIdle || decide (t = u)) := by
  unfold gainMovesIdle
  by_cases h : t = u
  · subst h; simp
  · rw [State.port_modPort_ne _ _ _ _ (by simpa using h)]; simp [h]

/-- R65: who gains MOVES_IDLE at the close of an event. -/
theorem raiseIdle_port (before s : State) (u : Tenant) :
    ((raiseIdle before s).port (.tenant u)).movesIdle =
      ((s.port (.tenant u)).movesIdle || ((s.tenant u).state == .active && hasWork before u && !hasWork s u)) := by
  have step : ∀ (t : Tenant) (a : State),
      ((if isActive s t && hasWork before t && !hasWork s t then gainMovesIdle t a else a).port (.tenant u)).movesIdle =
        ((a.port (.tenant u)).movesIdle || (decide (t = u) && (isActive s u && hasWork before u && !hasWork s u))) := by
    intro t a
    by_cases h : t = u
    · subst h
      by_cases c : (isActive s t && hasWork before t && !hasWork s t) = true
      · rw [if_pos c, gainMovesIdle_port, c]; simp
      · rw [if_neg c, (by simpa using c : (isActive s t && hasWork before t && !hasWork s t) = false)]; simp
    · split
      · rw [gainMovesIdle_port]; simp [h]
      · simp [h]
  unfold raiseIdle
  simp only [allTenants, List.foldl_cons, List.foldl_nil]
  rw [step, step, step, step]
  have : u = 0 ∨ u = 1 ∨ u = 2 ∨ u = 3 := by
    have h : ∀ v : Tenant, v = 0 ∨ v = 1 ∨ v = 2 ∨ v = 3 := by decide
    exact h u
  rcases this with h | h | h | h <;> subst h <;> simp [isActive]

theorem raiseIdle_eq (before s : State) : raiseIdle before s = { s with ports := (raiseIdle before s).ports } := by
  unfold raiseIdle
  generalize allTenants = l
  have : ∀ a : State, a = { s with ports := a.ports } →
      l.foldl (fun acc t => if isActive s t && hasWork before t && !hasWork s t then gainMovesIdle t acc else acc) a =
        { s with
          ports := (l.foldl
            (fun acc t => if isActive s t && hasWork before t && !hasWork s t then gainMovesIdle t acc else acc) a).ports } := by
    induction l with
    | nil => exact fun _ h => h
    | cons t rest ih =>
      intro a h
      refine ih _ ?_
      dsimp only
      split
      · rw [h]
        rfl
      · exact h
  exact this s rfl

/-- MOVES_IDLE is the one field of a port that the close of an event changes, and the venue's port has none of it. -/
theorem raiseIdle_masked (before s : State) (p : Port) :
    { (raiseIdle before s).port p with movesIdle := false } = { s.port p with movesIdle := false } ∧
      (raiseIdle before s).port .venue = s.port .venue := by
  refine ⟨foldl_keeps (fun x : State => { x.port p with movesIdle := false }) _ (fun acc t => ?_) _ s,
    foldl_keeps (fun x : State => x.port .venue) _ (fun acc t => ?_) _ s⟩
  · split
    · by_cases e : Port.tenant t = p
      · subst e
        simp [gainMovesIdle]
      · simp [gainMovesIdle, State.port_modPort_ne _ _ _ _ e]
    · rfl
  · split
    · exact State.port_modPort_ne _ _ _ _ (by simp)
    · rfl

/-! ### The close of an event -/

/-- R65: what is left of the close once the queue has settled. -/
theorem raiseIdle_closed {before b s v : State} {n : Nat} (hb : ∀ u, hasWork b u = hasWork before u)
    (h : SettledBy n s v) : Closed before s (raiseIdle b v) := by
  refine ⟨n, v, h, raiseIdle_eq b v, ?_, fun u => ?_⟩
  · rw [(raiseIdle_masked b v .venue).2, State.port, State.port, h.ports]
  · have hm := (raiseIdle_masked b v (.tenant u)).1
    have hi := raiseIdle_port b v u
    have e := raiseIdle_eq b v
    rw [← hb u, hasWork_congr (s := v) (t := raiseIdle b v) (by rw [e]) (by rw [e]) u]
    have hv : v.port (.tenant u) = s.port (.tenant u) := by simp only [State.port, h.ports]
    have ht : v.tenant u = s.tenant u := by simp only [State.tenant, h.tenants]
    rw [hv, ht] at hi
    rw [hv] at hm
    rw [← hi]
    generalize (raiseIdle b v).port (.tenant u) = x at hm ⊢
    generalize s.port (.tenant u) = y at hm ⊢
    cases x
    cases y
    simp only [PortRec.mk.injEq] at hm ⊢
    simp [hm]

/-- R45 to R49, R65: the close of an event, whatever its work in the Move Queue. -/
theorem finish_closed (before b s : State) (hb : ∀ u, hasWork b u = hasWork before u) : Closed before s (finish b s) := by
  unfold finish
  split
  · obtain ⟨n, _, h⟩ := settle_settledBy s
    exact raiseIdle_closed hb h
  · exact raiseIdle_closed hb (settledBy_zero s)

/-! ### Ports and the close of an event -/

/-- A change of a target and a change of a port's record commute. -/
theorem setTarget_modPort (z : Zone) (t : Tenant) (d : Dest) (src : Origin) (s : State) (p : Port) (g : PortRec → PortRec) :
    setTarget z t d src (s.modPort p g) = (setTarget z t d src s).modPort p g := by
  have e : (s.modPort p g).zone z = s.zone z := rfl
  have e2 : inService (s.modPort p g) z = inService s z := rfl
  have e3 : (s.modPort p g).cell z t = s.cell z t := rfl
  have e4 : moveAt (s.modPort p g) z t = moveAt s z t := rfl
  simp only [setTarget, e, e2, e3, e4]
  split
  · rfl
  · split
    · split
      · rfl
      · exact pass_modPort z (s.modCell z t fun c => { c with home := d, target := d, source := src }) p g
    · split
      · rfl
      · cases moveAt s z t with
        | none => rfl
        | some m =>
          simp only [retargetMove]
          cases retargeted m d src <;> rfl

theorem nextAdmission_modPort (s : State) (p : Port) (g : PortRec → PortRec) :
    nextAdmission (s.modPort p g) = nextAdmission s := rfl

theorem admitNext_modPort (s : State) (p : Port) (g : PortRec → PortRec) :
    admitNext (s.modPort p g) = (admitNext s).modPort p g := by
  unfold admitNext
  rw [nextAdmission_modPort]
  split <;> rfl

theorem iterate_admitNext_modPort (n : Nat) (s : State) (p : Port) (g : PortRec → PortRec) :
    admitNext^[n] (s.modPort p g) = (admitNext^[n] s).modPort p g := by
  induction n generalizing s with
  | zero => rfl
  | succ n ih => rw [Function.iterate_succ_apply, Function.iterate_succ_apply, admitNext_modPort, ih]

/-- A change of a port's record can be taken before or after the queue settles. -/
theorem SettledBy.modPort {n : Nat} {s t : State} (h : SettledBy n s t) (p : Port) (g : PortRec → PortRec) :
    SettledBy n (s.modPort p g) (t.modPort p g) := by
  obtain ⟨h1, h2⟩ := h
  unfold SettledBy
  rw [iterate_admitNext_modPort]
  exact ⟨h1, h2.modPort p g⟩

/-- A change of a port's record that neither reads nor writes MOVES_IDLE can be taken before or after the close. -/
theorem Closed.modPort {before s t : State} (h : Closed before s t) (p : Port) (g : PortRec → PortRec)
    (hg : ∀ q b, g { q with movesIdle := b } = { g q with movesIdle := b }) (hk : ∀ q, (g q).movesIdle = q.movesIdle) :
    Closed before (s.modPort p g) (t.modPort p g) := by
  obtain ⟨n, v, h1, h2, h3, h4⟩ := h
  refine ⟨n, v.modPort p g, h1.modPort p g, ?_, ?_, fun u => ?_⟩
  · rw [h2]
    rfl
  · by_cases e : p = .venue
    · subst e
      rw [State.port_modPort_same, State.port_modPort_same, h3]
    · rw [State.port_modPort_ne _ _ _ _ e, State.port_modPort_ne _ _ _ _ e, h3]
  · have hw : hasWork (t.modPort p g) u = hasWork t u := rfl
    have hs : (s.modPort p g).tenant u = s.tenant u := rfl
    rw [hw, hs]
    by_cases e : p = .tenant u
    · subst e
      rw [State.port_modPort_same, State.port_modPort_same, h4 u, hg, hk]
    · rw [State.port_modPort_ne _ _ _ _ e, State.port_modPort_ne _ _ _ _ e, h4 u]

end Sys2Proof.Machine
end

