-- ==== Sys2Proof/Laws/Operands.lean ====
section
/-! SUPPORT. What each operand form reads: the octets that name a record, and those that name none. -/

namespace Sys2Proof.Machine

theorem zoneOf_some {b : Byte} {z : Zone} (h : b.toNat = z.val) : zoneOf b = some z := by
  have : b.toNat < 48 := by omega
  simp only [zoneOf, dif_pos this, Option.some.injEq]
  exact Fin.ext h

theorem zoneOf_none {b : Byte} (h : 47 < b.toNat) : zoneOf b = none := by
  simp only [zoneOf, dif_neg (show ¬ b.toNat < 48 by omega)]

theorem tenantOf_some {b : Byte} {t : Tenant} (h : b.toNat = t.val) : tenantOf b = some t := by
  have : b.toNat < 4 := by omega
  simp only [tenantOf, dif_pos this, Option.some.injEq]
  exact Fin.ext h

theorem tenantOf_none {b : Byte} (h : 3 < b.toNat) : tenantOf b = none := by
  simp only [tenantOf, dif_neg (show ¬ b.toNat < 4 by omega)]

theorem slotOf_some {b : Byte} {k : Slot} (h : b.toNat = k.val) : slotOf b = some k := by
  have : b.toNat < 4 := by omega
  simp only [slotOf, dif_pos this, Option.some.injEq]
  exact Fin.ext h

theorem slotOf_none {b : Byte} (h : 3 < b.toNat) : slotOf b = none := by
  simp only [slotOf, dif_neg (show ¬ b.toNat < 4 by omega)]

theorem pageOf_some {b : Byte} {n : PageNo} (h : b.toNat = n.val) : pageOf b = some n := by
  have : b.toNat < 6 := by omega
  simp only [pageOf, dif_pos this, Option.some.injEq]
  exact Fin.ext h

theorem pageOf_none {b : Byte} (h : 5 < b.toNat) : pageOf b = none := by
  simp only [pageOf, dif_neg (show ¬ b.toNat < 6 by omega)]

theorem sectorOf_some {count : Nat} {b : Byte} {k : Sector} (h : b.toNat = k.val) (hc : k.val < count) :
    sectorOf count b = some k := by
  have h6 : b.toNat < 6 := by omega
  have hlt : b.toNat < count := by omega
  simp only [sectorOf, dif_pos h6, if_pos hlt, Option.some.injEq]
  exact Fin.ext h

theorem sectorOf_none {count : Nat} {b : Byte} (h : count ≤ b.toNat ∨ 5 < b.toNat) : sectorOf count b = none := by
  unfold sectorOf
  split
  · rw [if_neg (by omega)]
  · rfl

theorem sectorOf_eq {count : Nat} {b : Byte} {k : Sector} (h : sectorOf count b = some k) :
    b.toNat = k.val ∧ k.val < count := by
  unfold sectorOf at h
  split at h
  · split at h
    · cases h
      exact ⟨rfl, by assumption⟩
    · cases h
  · cases h

/-- R164: each code names its command. -/
theorem commandOf_code (c : Command) : commandOf (commandCode c) = some c := by cases c <;> decide

/-- A later result replaces an earlier one. -/
theorem setResult_setResult (p : Port) (r r' : Result) (s : State) :
    setResult p r (setResult p r' s) = setResult p r s := by
  simp only [setResult, State.modPort, tmod, tset, tget]
  congr 1
  simp

end Sys2Proof.Machine
end

