-- ==== Sys2Proof/Laws/Ports.lean ====
section
/-! SUPPORT. What a burst of whole octets does on a port that is ready: the bits are the octets, and a whole fixed
command reaches its block with its parameters. -/

namespace Sys2Proof.Machine

/-! ### Bits and octets -/

theorem bitsOctet_octetBits (param : Bool) (b : Byte) : bitsOctet (octetBits param b) = b := by
  revert param b
  decide +kernel

theorem takenOctet_octetBits (param : Bool) (b : Byte) : takenOctet (octetBits param b) = (param, b) :=
  Prod.ext rfl (bitsOctet_octetBits param b)

/-- A whole octet is cut off, and the rest is cut from a fresh octet. -/
theorem cutOctets_octet (param : Bool) (b : Byte) (rest : List LineBit) :
    cutOctets [] (octetBits param b ++ rest) = ((param, b) :: (cutOctets [] rest).1, (cutOctets [] rest).2) := by
  have h := takenOctet_octetBits param b
  simp only [octetBits] at h
  simp only [octetBits, cutOctets, List.cons_append, List.nil_append, List.length_cons, List.length_nil, Nat.reduceAdd,
    Nat.reduceEqDiff, if_true, if_false, h]

/-- Whole octets clocked with the line high are cut into just those octets. -/
theorem cutOctets_params (os : List Byte) :
    cutOctets [] (os.flatMap (octetBits true)) = (os.map fun b => (true, b), []) := by
  induction os with
  | nil => rfl
  | cons b rest ih => simp [List.flatMap_cons, cutOctets_octet, ih]

/-- Cutting goes on from the bits left over. -/
theorem cutOctets_append (held a b : List LineBit) :
    cutOctets held (a ++ b) =
      ((cutOctets held a).1 ++ (cutOctets (cutOctets held a).2 b).1, (cutOctets (cutOctets held a).2 b).2) := by
  induction a generalizing held with
  | nil => simp [cutOctets]
  | cons x rest ih =>
    simp only [List.cons_append, cutOctets]
    split
    · simp [ih []]
    · exact ih _

/-! ### Whole bursts -/

/-- The state in which the octets of a burst are taken. -/
def opened (p : Port) (s : State) : State := s.modPort p fun q => { q with assembly := [], dataOut := [] }

theorem clockBits_ready {s : State} {p : Port} (h : Ready s p) (bits : List LineBit) :
    clockBits p bits s = beginNext p (cutOctets [] bits).2 ((cutOctets [] bits).1.foldl (takeOctet p) (opened p s)) := by
  obtain ⟨h1, h2, h3, h4⟩ := h
  simp [clockBits, takeBits, opened, h1, h2, h3, h4]

/-- The octet due does not depend on the bits taken or on what data out presented before. -/
theorem firstOut_opened (p : Port) (s : State) : firstOut p (opened p s) = firstOut p s := by
  unfold firstOut beginOctet dueOctet opened
  simp only [State.port_modPort_same]
  cases (s.port p).cmd with
  | reading r held pos =>
    cases held with
    | none =>
      cases r <;> simp only [setCmd, State.port_modPort_same, readElement] <;> rfl
    | some os => simp [State.port_modPort_same]
  | _ => simp [State.port_modPort_same]

theorem refusalOf_modPort (p q : Port) (g : PortRec → PortRec) (s : State) (c : Command) :
    refusalOf (s.modPort q g) p c = refusalOf s p c := by cases p <;> rfl

theorem beginNext_nil (p : Port) (s : State) : beginNext p [] s = s := by simp [beginNext]

/-- A command sent whole: its code octet is taken, and then its parameter octets. -/
theorem clockBurst_whole {s : State} {p : Port} (h : Ready s p) (c : Command) (os : List Byte) :
    clockBurst c p (Burst.whole os) s =
      (os.map fun b => (true, b)).foldl (takeOctet p) (takeOctet p (opened p s) (false, commandCode c)) := by
  simp [clockBurst, clockedBits, clockBits_ready h, cutOctets_octet, cutOctets_params, beginNext_nil]

/-- A code octet that names no command, and octets after it. -/
theorem clockCode_whole {s : State} {p : Port} (h : Ready s p) (code : Byte) (os : List Byte) :
    clockCode p code (Clocked.whole os) s =
      (os.map fun b => (true, b)).foldl (takeOctet p) (takeOctet p (opened p s) (false, code)) := by
  simp [clockCode, clockedBits, clockBits_ready h, cutOctets_octet, cutOctets_params, beginNext_nil]

/-- Whole octets of an element row. -/
theorem clockElement_whole {s : State} {p : Port} (h : Ready s p) (os : List Byte) :
    clockElement p (Clocked.whole os) s = (os.map fun b => (true, b)).foldl (takeOctet p) (opened p s) := by
  simp [clockElement, clockedBits, clockBits_ready h, cutOctets_params, beginNext_nil]

/-- Every command row gives its burst to its port. -/
theorem exec_commandRow (c : Command) (p : Port) (b : Burst) (s : State) :
    exec (commandRow c p b) s = .next (clockBurst c p b s) := by cases c <;> rfl

/-- Every element row gives its octets to its port. -/
theorem exec_elementRow {row : Port → Clocked → Instr} (h : row ∈ elementRows) (p : Port) (c : Clocked) (s : State) :
    exec (row p c) s = .next (clockElement p c s) := by
  simp only [elementRows, List.mem_cons, List.not_mem_nil, or_false] at h
  rcases h with h | h | h | h | h | h | h | h | h | h <;> subst h <;> rfl

/-! ### One octet -/

/-- A code octet outside start-up: data out presents the octet due, and the code is taken. What a READING port held is
dropped with its command. -/
theorem takeOctet_code {s : State} {p : Port} (h : s.starting = false) (b : Byte) :
    takeOctet p s (false, b) = takeCode p b (present p (firstOut p s) (beginOctet p s)) := by
  simp [takeOctet, h, firstOut]

theorem beginOctet_starting (p : Port) (s : State) : (beginOctet p s).starting = s.starting := by
  unfold beginOctet
  split <;> rfl

/-- Starting an octet changes at most the command in progress. -/
theorem beginOctet_eq (p : Port) (s : State) : ∃ x, beginOctet p s = setCmd p x s := by
  unfold beginOctet
  split
  · exact ⟨_, rfl⟩
  · exact ⟨(s.port p).cmd, by simp [setCmd, State.modPort_eq]⟩

/-- An octet on a port that is not READING presents 00h. -/
theorem takeOctet_param {s : State} {p : Port} (h : s.starting = false) (hr : ∀ r held pos, (s.port p).cmd ≠ .reading r held pos)
    (b : Byte) : takeOctet p s (true, b) = takeParam p b (present p 0 s) := by
  have hb : beginOctet p s = s := by
    unfold beginOctet
    split
    · next r pos e => exact absurd e (hr r none pos)
    · rfl
  have hd : dueOctet p s = 0 := by
    unfold dueOctet
    split
    · next r os pos e => exact absurd e (hr r (some os) pos)
    · rfl
  simp [takeOctet, h, hb, hd]

/-- Octets on an IDLE port are ignored (R163). -/
theorem takeOctets_idle {s : State} {p : Port} (h : s.starting = false) (hc : (s.port p).cmd = .idle) (os : List Byte) :
    (os.map fun b => (true, b)).foldl (takeOctet p) s =
      s.modPort p fun q => { q with dataOut := q.dataOut ++ List.replicate os.length 0 } := by
  induction os generalizing s with
  | nil => simp [State.modPort_eq]
  | cons b rest ih =>
    have e : takeOctet p s (true, b) = present p 0 s := by
      rw [takeOctet_param h (by simp [hc])]
      simp [takeParam, present, hc]
    simp only [List.map_cons, List.foldl_cons, e]
    rw [ih (by simpa [present] using h) (by simpa [present] using hc)]
    simp [present, List.replicate_succ]

/-! ### Fixed commands -/

/-- R166: the parameters of a fixed command that is not yet complete are kept. -/
theorem takeOctets_collecting {s : State} {p : Port} {c : Command} {os : List Byte} (h : s.starting = false)
    (hc : (s.port p).cmd = .collecting c os) (rest : List Byte)
    (hl : os.length + rest.length < paramCount (p == .venue) c) :
    (rest.map fun b => (true, b)).foldl (takeOctet p) s =
      s.modPort p fun q =>
        { q with cmd := .collecting c (os ++ rest), dataOut := q.dataOut ++ List.replicate rest.length 0 } := by
  induction rest generalizing s os with
  | nil =>
    symm
    simp only [List.map_nil, List.foldl_nil]
    apply State.modPort_eq
    simp [← hc]
  | cons b rest ih =>
    have hn : ¬ os.length + 1 = paramCount (p == .venue) c := by simp at hl; omega
    have e : takeOctet p s (true, b) = setCmd p (.collecting c (os ++ [b])) (present p 0 s) := by
      rw [takeOctet_param h (by simp [hc])]
      simp [takeParam, present, hc, hn]
    simp only [List.map_cons, List.foldl_cons, e]
    rw [ih (os := os ++ [b]) (by simpa [present, setCmd] using h) (by simp [setCmd]) (by simp at hl ⊢; omega)]
    simp [present, setCmd, List.replicate_succ]

/-- R166: the last parameter of a fixed command completes it. -/
theorem takeOctet_last {s : State} {p : Port} {c : Command} {os : List Byte} (h : s.starting = false)
    (hc : (s.port p).cmd = .collecting c os) (b : Byte) (hl : os.length + 1 = paramCount (p == .venue) c) :
    takeOctet p s (true, b) = complete p c (os ++ [b]) (present p 0 s) := by
  rw [takeOctet_param h (by simp [hc])]
  simp [takeParam, present, hc, hl]

/-- R164: a refused code becomes the last command code, with its refusal as the result, on an IDLE port. -/
theorem takeCode_refused {s : State} {p : Port} {c : Command} {r : Result} (hr : refusalOf s p c = some r) :
    takeCode p (commandCode c) s = setCodeResult p (commandCode c) r (setCmd p .idle s) := by
  have hcode : commandOf (commandCode c) = some c := by cases c <;> decide
  have hr' : refusalOf (setCmd p .idle s) p c = some r := by rw [← hr, setCmd, refusalOf_modPort]
  simp only [takeCode, hcode, hr']

/-- R164, R166: an accepted code of a fixed command with parameters. -/
theorem takeCode_fixed {s : State} {p : Port} {c : Command} (hf : isFixed c = true)
    (hr : refusalOf s p c = none) :
    takeCode p (commandCode c) s = setCmd p (.collecting c []) (setCodeResult p (commandCode c) .incomplete s) := by
  have hcode : commandOf (commandCode c) = some c := by cases c <;> decide
  have hr' : refusalOf (setCmd p .idle s) p c = none := by
    rw [← hr]
    unfold refusalOf
    cases p <;> rfl
  simp only [takeCode, hcode, hr']
  cases c <;> first | exact absurd hf (by decide) | simp [acceptCode, setCmd, setCodeResult]

/-- The parameters go to the block of the port. -/
def runComplete (p : Port) (c : Command) (os : List Byte) (s : State) : State :=
  match p with
  | .tenant t => completeTenant t c os s
  | .venue => completeVenue c os s

/-- R166: a fixed command sent whole, with the parameters it has and no refusal at its code. -/
theorem clockBurst_fixed {s : State} {p : Port} (h : Ready s p) {c : Command} (hf : isFixed c = true)
    (hr : refusalOf s p c = none) {os : List Byte} (hn : os.length = paramCount (p == .venue) c) :
    clockBurst c p (Burst.whole os) s = runComplete p c os (afterFixed p c os.length .incomplete s) := by
  rw [clockBurst_whole h]
  have hpos : 0 < os.length := by
    rw [hn]
    cases c <;> first | exact absurd hf (by decide) | simp [paramCount]
  obtain ⟨init, last, rfl⟩ : ∃ i l, os = i ++ [l] :=
    ⟨os.dropLast, os.getLast (by rintro rfl; simp at hpos), (List.dropLast_append_getLast _).symm⟩
  have hs : (opened p s).starting = false := h.1
  obtain ⟨x, hx⟩ := beginOctet_eq p (opened p s)
  rw [takeOctet_code hs, firstOut_opened, hx, takeCode_fixed hf (by
    simp only [present, setCmd, opened, refusalOf_modPort, hr])]
  rw [List.map_append, List.foldl_append, takeOctets_collecting (c := c) (os := []) (by simpa [setCmd, setCodeResult, present] using hs)
    (by simp [setCmd]) init (by simp at hn ⊢; omega)]
  simp only [List.map_cons, List.map_nil, List.foldl_cons, List.foldl_nil]
  rw [takeOctet_param (by simpa [setCmd, setCodeResult, present] using hs) (by simp)]
  simp only [takeParam, present, setCmd, setCodeResult, State.port_modPort_same, List.nil_append, if_pos hn, complete,
    opened, State.modPort_modPort]
  have e : ∀ g : PortRec → PortRec,
      g (s.port p) = { s.port p with
        cmd := .idle, lastCode := some (commandCode c), result := .incomplete,
        dataOut := firstOut p s :: List.replicate (init ++ [last]).length 0 } →
      s.modPort p g = afterFixed p c (init ++ [last]).length .incomplete s :=
    fun g hg => State.modPort_congr s p hg
  have ha : (s.port p).assembly = [] := h.2.2.2
  cases p with
  | tenant t =>
    refine congrArg (completeTenant t c (init ++ [last])) (e _ ?_)
    simp [ha, List.replicate_succ']
  | venue =>
    refine congrArg (completeVenue c (init ++ [last])) (e _ ?_)
    simp [ha, List.replicate_succ']

/-- A fixed command sent whole, on a port that admits it. -/
theorem exec_fixed {s : State} {p : Port} (h : Ready s p) {c : Command} (hf : isFixed c = true)
    (hr : refusalOf s p c = none) {os : List Byte} (hn : os.length = paramCount (p == .venue) c) :
    exec (commandRow c p (Burst.whole os)) s = .next (runComplete p c os (afterFixed p c os.length .incomplete s)) := by
  rw [exec_commandRow, clockBurst_fixed h hf hr hn]

theorem setResult_afterFixed (p : Port) (c : Command) (n : Nat) (r r' : Result) (s : State) :
    setResult p r (afterFixed p c n r' s) = afterFixed p c n r s := by
  simp [afterFixed, portAfter, setResult]

/-- R164: an accepted code, and the octets after it. -/
theorem clockBurst_accepted {s : State} {p : Port} (h : Ready s p) {c : Command} (hr : refusalOf s p c = none)
    (os : List Byte) :
    clockBurst c p (Burst.whole os) s =
      (os.map fun b => (true, b)).foldl (takeOctet p)
        (acceptCode p c (s.modPort p fun q => { q with assembly := [], cmd := .idle, dataOut := [firstOut p s] })) := by
  obtain ⟨x, hx⟩ := beginOctet_eq p (opened p s)
  have hs : (opened p s).starting = false := h.1
  have hp : present p (firstOut p s) (setCmd p x (opened p s)) =
      s.modPort p fun q => { q with assembly := [], cmd := x, dataOut := [firstOut p s] } := by
    simp [present, setCmd, opened]
  rw [clockBurst_whole h, takeOctet_code hs, firstOut_opened, hx, hp]
  have hcode : commandOf (commandCode c) = some c := by cases c <;> decide
  have hr' : refusalOf (setCmd p .idle (s.modPort p fun q =>
      { q with assembly := [], cmd := x, dataOut := [firstOut p s] })) p c = none := by
    rw [setCmd, refusalOf_modPort, refusalOf_modPort, hr]
  simp only [takeCode, hcode, hr']
  simp [setCmd]

/-! ### Elements of a streamed write -/

/-- R169: the octets of an element that is not yet complete are kept. -/
theorem takeOctets_streaming {s : State} {p : Port} {w : WriteTo} {part : List Byte} (h : s.starting = false)
    (hc : (s.port p).cmd = .streaming w part) (os : List Byte) (hl : part.length + os.length < writeSize w) :
    (os.map fun b => (true, b)).foldl (takeOctet p) s = s.modPort p fun q =>
      { q with cmd := .streaming w (part ++ os), dataOut := q.dataOut ++ List.replicate os.length 0 } := by
  induction os generalizing s part with
  | nil =>
    symm
    apply State.modPort_eq
    simp [← hc]
  | cons b rest ih =>
    have hn : ¬ part.length + 1 = writeSize w := by simp at hl; omega
    have e : takeOctet p s (true, b) = setCmd p (.streaming w (part ++ [b])) (present p 0 s) := by
      rw [takeOctet_param h (by simp [hc])]
      simp [takeParam, present, hc, hn]
    simp only [List.map_cons, List.foldl_cons, e]
    rw [ih (part := part ++ [b]) (by simpa [present, setCmd] using h) (by simp [setCmd]) (by simp at hl ⊢; omega)]
    simp [present, setCmd, List.replicate_succ]

/-- R169: an element sent whole goes to its block. -/
theorem clockElement_streaming {s : State} {p : Port} {w : WriteTo} (h : Streaming s p w) (os : List Byte)
    (hl : os.length = writeSize w) :
    clockElement p (Clocked.whole os) s = applyElement p w os (afterElement p os.length s) := by
  obtain ⟨hr, hc⟩ := h
  have hs : (opened p s).starting = false := hr.1
  have hpos : os ≠ [] := by
    rintro rfl
    cases w <;> simp [writeSize] at hl
  obtain ⟨init, last, e⟩ : ∃ (i : List Byte) (l : Byte), os = i ++ [l] :=
    ⟨os.dropLast, os.getLast hpos, (List.dropLast_append_getLast hpos).symm⟩
  have hlen : init.length + 1 = writeSize w := by
    rw [← hl, e]
    simp
  rw [clockElement_whole hr]
  conv_lhs => rw [e]
  rw [List.map_append, List.foldl_append,
    takeOctets_streaming (w := w) (part := []) hs (by simp [opened, hc]) init (by simp; omega)]
  simp only [List.map_cons, List.map_nil, List.foldl_cons, List.foldl_nil, List.nil_append]
  rw [takeOctet_param (s := State.modPort _ p _) (by simpa using hs) (by simp)]
  simp only [takeParam, present, State.port_modPort_same, setCmd, opened, State.modPort_modPort, ← e, if_pos hl]
  refine congrArg (applyElement p w os) (State.modPort_congr s p ?_)
  simp [e, ← hc, hr.2.2.2, List.replicate_succ']

/-! ### Replies and elements -/

/-- R167: while values are held, an octet presents the reply octet due and is counted. -/
theorem takeOctet_held {s : State} {p : Port} {r : ReadFrom} {el : List Byte} {pos : Nat} (h : s.starting = false)
    (hc : (s.port p).cmd = .reading r (some el) pos) (b : Byte) :
    takeOctet p s (true, b) = countOctet p r (some el) pos (present p (el.getD pos 0) s) := by
  have hb : beginOctet p s = s := by simp [beginOctet, hc]
  have hd : dueOctet p s = el.getD pos 0 := by simp [dueOctet, hc]
  simp [takeOctet, h, hb, hd, takeParam, present, hc]

/-- R170: at the first octet of an element its values are taken. -/
theorem takeOctet_fresh {s : State} {p : Port} {r : ReadFrom} {pos : Nat} (h : s.starting = false)
    (hc : (s.port p).cmd = .reading r none pos) (b : Byte) :
    takeOctet p s (true, b) = takeOctet p (setCmd p (.reading r (some (readElement p s r)) pos) s) (true, b) := by
  have hb : beginOctet p s = setCmd p (.reading r (some (readElement p s r)) pos) s := by simp [beginOctet, hc]
  have hb' : beginOctet p (setCmd p (.reading r (some (readElement p s r)) pos) s) =
      setCmd p (.reading r (some (readElement p s r)) pos) s := by simp [beginOctet, setCmd]
  have hs : (setCmd p (.reading r (some (readElement p s r)) pos) s).starting = false := h
  simp only [takeOctet, h, hs, hb, hb', Bool.false_eq_true, if_false]

/-- R167: octets that do not end the element or the reply present it in order. -/
theorem takeOctets_held {s : State} {p : Port} {r : ReadFrom} {el : List Byte} {pos : Nat} (h : s.starting = false)
    (hc : (s.port p).cmd = .reading r (some el) pos) (os : List Byte) (hn : pos + os.length < readSize r) :
    (os.map fun b => (true, b)).foldl (takeOctet p) s = s.modPort p fun q =>
      { q with
        cmd := .reading r (some el) (pos + os.length)
        dataOut := q.dataOut ++ (List.range' pos os.length).map fun i => el.getD i 0 } := by
  induction os generalizing s pos with
  | nil =>
    symm
    apply State.modPort_eq
    simp [← hc]
  | cons b rest ih =>
    simp only [List.length_cons] at hn
    have e : takeOctet p s (true, b) =
        s.modPort p fun q => { q with cmd := .reading r (some el) (pos + 1), dataOut := q.dataOut ++ [el.getD pos 0] } := by
      rw [takeOctet_held h hc]
      cases r with
      | reply os =>
        have hm : min (pos + 1) os.length = pos + 1 := by simp only [readSize] at hn; omega
        simp [countOctet, setCmd, present, hm]
      | _ =>
        have hlt := Nat.lt_of_le_of_lt (Nat.add_le_add_left (Nat.le_add_left 1 rest.length) pos) hn
        simp [countOctet, setCmd, present, hlt]
    simp only [List.map_cons, List.foldl_cons, e]
    rw [ih (s := s.modPort p _) (pos := pos + 1) (by simpa using h) (by simp) (by omega)]
    simp only [State.modPort_modPort, List.length_cons, List.range'_succ, List.map_cons]
    apply State.modPort_congr
    simp [Nat.add_assoc, Nat.add_comm 1]

/-- The octets of a list, one by one. -/
theorem map_getD_range (el : List Byte) : (List.range' 0 el.length).map (fun i => el.getD i 0) = el := by
  apply List.ext_getElem
  · simp
  · intro i h1 h2
    simp [h2]

/-- R167: the last octet of a fixed-length reply. -/
theorem takeOctets_reply {s : State} {p : Port} {el : List Byte} (h : s.starting = false)
    (hc : (s.port p).cmd = .reading (.reply el) none 0) (os : List Byte) (hn : os.length = el.length) (hp : os ≠ []) :
    (os.map fun b => (true, b)).foldl (takeOctet p) s = s.modPort p fun q =>
      { q with cmd := .reading (.reply el) (some el) el.length, dataOut := q.dataOut ++ el } := by
  obtain ⟨b, rest, rfl⟩ : ∃ b rest, os = b :: rest := by
    cases os with
    | nil => exact absurd rfl hp
    | cons b rest => exact ⟨b, rest, rfl⟩
  rw [List.map_cons, List.foldl_cons, takeOctet_fresh h hc, ← List.foldl_cons, ← List.map_cons (f := fun b => (true, b))]
  obtain ⟨init, last, e⟩ : ∃ (i : List Byte) (l : Byte), b :: rest = i ++ [l] :=
    ⟨(b :: rest).dropLast, (b :: rest).getLast (by simp), (List.dropLast_append_getLast (by simp)).symm⟩
  have hl : init.length + 1 = el.length := by
    rw [← hn, e]
    simp
  rw [e, List.map_append, List.foldl_append,
    takeOctets_held (r := .reply el) (el := el) (pos := 0) (by simpa [setCmd] using h) (by simp [setCmd, readElement]) init
      (by simp only [readSize]; omega)]
  simp only [List.map_cons, List.map_nil, List.foldl_cons, List.foldl_nil]
  rw [takeOctet_held (s := State.modPort _ p _) (r := .reply el) (el := el) (pos := 0 + init.length)
    (by simpa [setCmd] using h) (by simp)]
  have hr := map_getD_range el
  rw [← hl, List.range'_1_concat, List.map_append] at hr
  simp only [countOctet, setCmd, present, State.modPort_modPort]
  apply State.modPort_congr
  simp only [Nat.zero_add, List.append_assoc, hl, Nat.min_self] at hr ⊢
  simp only [List.map_cons, List.map_nil] at hr
  rw [hr]

/-- R170: one whole element of a streamed read. -/
theorem takeOctets_element {s : State} {p : Port} {r : ReadFrom} (h : s.starting = false)
    (hc : (s.port p).cmd = .reading r none 0) (hr : ∀ el, r ≠ .reply el) (os : List Byte) (hn : os.length = readSize r)
    (he : (readElement p s r).length = readSize r) :
    (os.map fun b => (true, b)).foldl (takeOctet p) s = s.modPort p fun q =>
      { q with
        cmd := .reading (nextRead s r) none 0
        pointer := if windowedRead r then nextPointer q else q.pointer
        dataOut := q.dataOut ++ readElement p s r } := by
  have hpos : 0 < readSize r := by
    cases r with
    | reply el => exact absurd rfl (hr el)
    | _ => simp [readSize]
  obtain ⟨b, rest, rfl⟩ : ∃ b rest, os = b :: rest := by
    cases os with
    | nil => exact absurd hn (by simp; omega)
    | cons b rest => exact ⟨b, rest, rfl⟩
  rw [List.map_cons, List.foldl_cons, takeOctet_fresh h hc, ← List.foldl_cons, ← List.map_cons (f := fun b => (true, b))]
  obtain ⟨init, last, e⟩ : ∃ (i : List Byte) (l : Byte), b :: rest = i ++ [l] :=
    ⟨(b :: rest).dropLast, (b :: rest).getLast (by simp), (List.dropLast_append_getLast (by simp)).symm⟩
  have hl : init.length + 1 = readSize r := by
    rw [← hn, e]
    simp
  rw [e, List.map_append, List.foldl_append,
    takeOctets_held (r := r) (el := readElement p s r) (pos := 0) (by simpa [setCmd] using h) (by simp [setCmd]) init
      (by omega)]
  simp only [List.map_cons, List.map_nil, List.foldl_cons, List.foldl_nil]
  rw [takeOctet_held (s := State.modPort _ p _) (r := r) (el := readElement p s r) (pos := 0 + init.length)
    (by simpa [setCmd] using h) (by simp)]
  have hg := map_getD_range (readElement p s r)
  rw [he, ← hl, List.range'_1_concat, List.map_append] at hg
  have hlt : ¬ 0 + init.length + 1 < readSize r := by omega
  have hx : ∀ x : State, countOctet p r (some (readElement p s r)) (0 + init.length) x =
      if windowedRead r then advancePointer p (setCmd p (.reading (nextRead x r) none 0) x)
      else setCmd p (.reading (nextRead x r) none 0) x := by
    intro x
    cases r with
    | reply el => exact absurd rfl (hr el)
    | _ => simp only [countOctet, if_neg hlt]
  have hnext : ∀ g : PortRec → PortRec, nextRead (s.modPort p g) r = nextRead s r := fun g => by cases r <;> rfl
  simp only [Nat.zero_add, List.map_cons, List.map_nil] at hg
  simp only [hx, setCmd, present, State.modPort_modPort, hnext, advancePointer]
  split
  · apply State.modPort_congr
    simp only [Nat.zero_add, List.append_assoc, hg]
    rfl
  · apply State.modPort_congr
    simp only [Nat.zero_add, List.append_assoc, hg]

end Sys2Proof.Machine
end

