-- ==== Sys2Proof/WellFormed.lean ====
section
/-! DEFINITION. Which terms of `Instr` are commands that can reach the part: the operands in the shape the lines give
them. -/

namespace Sys2Proof

/-- R162: a begun octet has taken fewer than eight bits. -/
def Clocked.tailShort (c : Clocked) : Bool := decide (c.tail.length < 8)

/-- R162: the first bit of a begun octet that is clocked with the line high. -/
def Clocked.tailHigh (c : Clocked) : Bool := (c.tail.head?.map LineBit.param).getD true

/-- What is clocked with the line high: whole octets, and fewer than eight bits of one more. -/
def Clocked.wellFormed (c : Clocked) : Bool := c.tailShort && c.tailHigh

/-- At least one bit is clocked. -/
def Clocked.nonempty (c : Clocked) : Bool := !c.params.isEmpty || !c.tail.isEmpty

/-- A burst that goes on with a command brings at least one bit of it. -/
def Burst.wellFormed : Burst → Bool
  | .code rest => rest.wellFormed
  | .more rest => rest.wellFormed && rest.nonempty

/-- R164: the code names no command of the table. -/
def unknownCode (code : Byte) : Bool := (Sys2Proof.Machine.commandOf code).isNone

/-- R103: a length octet that ends its frame. -/
def lengthOutOfRange (b : Byte) : Bool := decide (b.toNat < 5) || decide (64 < b.toNat)

/-- The commands that can reach the part. -/
def Instr.wellFormed : Instr → Bool
  | .writeTargetsElement _ c => c.wellFormed && c.nonempty
  | .writeAlternatesElement _ c => c.wellFormed && c.nonempty
  | .writeSceneElement _ c => c.wellFormed && c.nonempty
  | .writeLimitsElement _ c => c.wellFormed && c.nonempty
  | .writeWeightsElement _ c => c.wellFormed && c.nonempty
  | .readPlanElement _ c => c.wellFormed && c.nonempty
  | .readGrantsElement _ c => c.wellFormed && c.nonempty
  | .readLoadsElement _ c => c.wellFormed && c.nonempty
  | .readWeightsElement _ c => c.wellFormed && c.nonempty
  | .readZonesElement _ c => c.wellFormed && c.nonempty
  | .unknownCommand _ code c => unknownCode code && c.wellFormed
  | .setWindow _ b => b.wellFormed
  | .writeTargets _ b => b.wellFormed
  | .writeAlternates _ b => b.wellFormed
  | .requestMove _ b => b.wellFormed
  | .cancelMove _ b => b.wellFormed
  | .setLevel _ b => b.wellFormed
  | .storeScene _ b => b.wellFormed
  | .writeScene _ b => b.wellFormed
  | .recallScene _ b => b.wellFormed
  | .clearScene _ b => b.wellFormed
  | .setSpreading _ b => b.wellFormed
  | .readPlan _ b => b.wellFormed
  | .readGrants _ b => b.wellFormed
  | .readLoads _ b => b.wellFormed
  | .readFault _ b => b.wellFormed
  | .readStatus _ b => b.wellFormed
  | .admitTenant _ b => b.wellFormed
  | .suspendTenant _ b => b.wellFormed
  | .resumeTenant _ b => b.wellFormed
  | .retireTenant _ b => b.wellFormed
  | .setQuota _ b => b.wellFormed
  | .setLimit _ b => b.wellFormed
  | .writeLimits _ b => b.wellFormed
  | .pinZone _ b => b.wellFormed
  | .unpinZone _ b => b.wellFormed
  | .setVenueMode _ b => b.wellFormed
  | .setStandbyClasses _ b => b.wellFormed
  | .setWake _ b => b.wellFormed
  | .setDerate _ b => b.wellFormed
  | .setEscalation _ b => b.wellFormed
  | .setSupervision _ b => b.wellFormed
  | .setRamp _ b => b.wellFormed
  | .setCensus _ b => b.wellFormed
  | .writeWeights _ b => b.wellFormed
  | .readWeights _ b => b.wellFormed
  | .isolateRemote _ b => b.wellFormed
  | .restoreRemote _ b => b.wellFormed
  | .readZones _ b => b.wellFormed
  | .writeStorePage _ b => b.wellFormed
  | .lockStorePage _ b => b.wellFormed
  | .readStorePage _ b => b.wellFormed
  | .softReset _ b => b.wellFormed
  | .frameReceived _ chars => !chars.isEmpty
  | .badLength _ length => lengthOutOfRange length
  | .hardwareReset => true
  | .startUp => true
  | .selectRise _ => true
  | .selectFall _ => true
  | .rampTimerExpiry => true
  | .censusTimerExpiry => true
  | .pollTimerExpiry => true
  | .pollSent _ => true
  | .replyTimerExpiry _ => true
  | .frameTransmitted _ => true
  | .lossOfLock _ => true
  | .returnOfLock _ => true
  | .carrierLost _ _ => true
  | .carrierBack _ _ => true
  | .storeWriteCompletion => true
  | .storeLockCompletion => true
  | .oneSecondTimerExpiry => true
  | .startPattern _ => true

end Sys2Proof
end

