-- ==== Sys2Proof/Tests/Slice0.lean ====
section
/-! SUPPORT. The model's own tests: ill-formed commands that the check refuses, the figures the spec works out, and, for
every statement with hypotheses, a state and operands that meet them, at the ends of their ranges. -/

namespace Sys2Proof.Tests

open Sys2Proof Sys2Proof.Machine

/-! ### Ill-formed commands -/

theorem test_wf_whole_command : (Instr.setWindow .venue (Burst.whole [0, 47])).wellFormed = true := by decide
theorem test_wf_tail_of_seven_bits :
    (Instr.setWindow .venue (.code ⟨[], List.replicate 7 ⟨true, false⟩⟩)).wellFormed = true := by decide
theorem test_wf_tail_of_eight_bits :
    (Instr.setWindow .venue (.code ⟨[], List.replicate 8 ⟨true, false⟩⟩)).wellFormed = false := by decide
theorem test_wf_tail_begun_low : (Instr.setWindow .venue (.code ⟨[0], [⟨false, true⟩]⟩)).wellFormed = false := by decide
theorem test_wf_nothing_more : (Instr.setQuota .venue (.more ⟨[], []⟩)).wellFormed = false := by decide
theorem test_wf_empty_element : (Instr.writeTargetsElement (.tenant 0) ⟨[], []⟩).wellFormed = false := by decide
theorem test_wf_known_code : (Instr.unknownCommand .venue 0x01 ⟨[], []⟩).wellFormed = false := by decide
theorem test_wf_unknown_code : (Instr.unknownCommand .venue 0x0C ⟨[], []⟩).wellFormed = true := by decide
theorem test_wf_no_characters : (Instr.frameReceived 0 []).wellFormed = false := by decide
theorem test_wf_length_in_range :
    (Instr.badLength 0 5).wellFormed = false ∧ (Instr.badLength 0 64).wellFormed = false := by decide
theorem test_wf_length_out_of_range :
    (Instr.badLength 0 4).wellFormed = true ∧ (Instr.badLength 0 65).wellFormed = true := by decide

/-! ### Small states -/

/-- The part after reset, with the select line of every port fallen. -/
def selected : State :=
  { State.reset with ports := tmapIdx (fun _ q => { q with selectLow := true, armed := true }) State.reset.ports }

/-- A small venue: T0 ACTIVE with sectors S0 to S2 and a share of 12, T1 SUSPENDED with a share of 8; Z0 to Z2 bound to F0
at positions 1 to 3, the remotes of Z0 and Z1 in service, the one of Z2 SEARCHING; T0's homes are S0 at Z0, S1 at Z1. -/
def small : State :=
  { selected with
    tenants := #v[
      { TenantRec.vacant with
        state := .active, quota := 12, sectorCount := 3
        levels := #v[700, 900, 300, 0, 0, 0], presence := #v[true, true, true, false, false, false] },
      { TenantRec.vacant with state := .suspended, quota := 8, sectorCount := 2 },
      TenantRec.vacant, TenantRec.vacant]
    zones := tset (tset (tset selected.zones 0 ⟨.bowl, 1000, some ⟨0, 0⟩, 1000, false, 1000⟩)
      1 ⟨.suite, 800, some ⟨0, 1⟩, 500, false, 500⟩) 2 ⟨.bowl, 16383, some ⟨0, 2⟩, 16383, false, 0⟩
    remotes := tset (tset (tset selected.remotes 0 { RemoteRec.unbound with state := .alive, sentLimit := 1000, sentMute := false })
      1 { RemoteRec.unbound with state := .alive, sentLimit := 500, sentMute := false })
      2 { RemoteRec.unbound with state := .searching }
    cells := tset (tset selected.cells
      0 (tset (tget selected.cells 0) 0
        { Cell.dark with home := .sector 0, target := .sector 0, request := 700, grant := 700, gain := 256, occupancy := 51 }))
      1 (tset (tget selected.cells 1) 0
        { Cell.dark with home := .sector 1, target := .sector 1, request := 900, grant := 500, gain := 142, occupancy := 34 })
    links := tset selected.links 0 { LinkRec.huntingAtStartUp with lockCond := true, locked := true, queue := [] }
    tenantReaders := #v[some ⟨6, 0⟩, some ⟨6, 0⟩, none, none] }

/-- A state with the command in progress on a port set. -/
def withCmd (p : Port) (c : Progress) (s : State) : State := s.modPort p fun q => { q with cmd := c }
/-- A state with a zone pinned. -/
def withPin (z : Zone) (s : State) : State := s.modZone z fun r => { r with pinned := true }
/-- A state with a remote in the state given. -/
def withRemote (z : Zone) (x : RemoteState) (s : State) : State := s.modRemote z fun r => { r with state := x }
/-- A state with the target of a cell of T0 set, and a move of the cell from its home at the tail of the queue. -/
def withMove (z : Zone) (d : Dest) (w : Nat) (dir : Direction) (x : MoveState) (s : State) : State :=
  let s := s.modCell z 0 fun c => { c with target := if dir = .forward then d else c.home }
  { s with moves := s.moves ++ [⟨0, z, (s.cell z 0).home, d, w, dir, x, .tenant⟩] }
/-- A state with a round of F0 in progress. -/
def withRound (pos : Pos) (ph : RoundPhase) (sending : Sending) (s : State) : State :=
  s.modLink 0 fun l => { l with sending := sending, round := some ⟨pos, ph, []⟩ }
/-- A state with the queue of F0 and what is being sent. -/
def withQueue (q : List Frame) (sending : Sending) (s : State) : State :=
  s.modLink 0 fun l => { l with queue := q, sending := sending }

/-- `small` with T0's cell at Z0 ramping from S0 to S1. -/
def ramping : State := withMove 0 (.sector 1) 8 .forward .ramping small
/-- `small` with T0's cell at Z0 ramping back from S1 to S0. -/
def reversing : State := withMove 0 (.sector 1) 8 .reverse .ramping small
/-- `small` with T0's cell at Z0 waiting to go from S0 to S1. -/
def waiting : State := withMove 0 (.sector 1) 0 .forward .waiting small
/-- `small` in start-up. -/
def inStartUp : State := { small with starting := true }

/-- The next state of a command, which every command has. -/
def after (c : Instr) (s : State) : State :=
  match exec c s with
  | .next t => t
  | .fault _ => s
  | .refused _ => s

/-! ### The queue -/

theorem test_step_takes_the_front :
    step { small with pending := [.selectRise .venue, .pollTimerExpiry] } =
      .next { small.modPort .venue (fun q => { q with selectLow := false }) with pending := [.pollTimerExpiry] } := rfl
theorem test_step_idles : step State.reset = .next State.reset := rfl

/-! ### The laws hold in `small`, so they hold in a state with tenants, bindings and a plan -/

theorem test_small_allotment : AllotmentFresh small := by unfold AllotmentFresh FreshAt; decide +kernel
theorem test_small_queue : MoveQueueBounded small ∧ NothingHeldBack small := by
  unfold MoveQueueBounded NothingHeldBack; decide +kernel
theorem test_ramping_queue : MoveQueueBounded ramping ∧ NothingHeldBack ramping := by
  unfold MoveQueueBounded NothingHeldBack; decide +kernel
theorem test_small_outage : OutageSettled small := by unfold OutageSettled; decide +kernel
theorem test_small_bounds : QuotaBounded small ∧ LimitsBounded small ∧ SettingsBounded small ∧ QueuesBounded small := by
  unfold QuotaBounded LimitsBounded SettingsBounded QueuesBounded; decide +kernel
theorem test_small_plan : PlanSound small := by
  refine ⟨by decide +kernel, by decide +kernel, fun t h => ⟨?_, Or.inl ?_⟩⟩
  · exact (show ∀ t, (small.tenant t).state ≠ .active → ∀ z, (small.cell z t).target = (small.cell z t).home by
      decide +kernel) t h
  · exact (show ∀ t, (small.port (.tenant t)).cmd = .idle by decide +kernel) t
theorem test_small_bindings : BindingsDistinct small := by
  refine ⟨fun y z b hy hz => ?_, fun p r h => by cases h⟩
  have key : ∀ y z : Zone, (small.zone y).binding ≠ none → (small.zone y).binding = (small.zone z).binding → y = z := by
    decide +kernel
  exact key y z (by simp [hy]) (hy.trans hz.symm)
theorem test_small_log : LogBounded small := by
  refine ⟨by decide +kernel, fun p r h => ?_⟩
  cases p with
  | venue => cases h; decide
  | tenant t =>
    have key : ∀ t, (small.reader (.tenant t)).all (fun r => decide (r.cursor ≤ small.log.length ∧ r.lost ≤ 255)) = true := by
      decide +kernel
    simpa [h] using key t
theorem test_small_log_reasons : LogReasonsSound small := by
  intro p
  cases p with
  | venue => decide +kernel
  | tenant t => revert t; decide +kernel
/-- `small` with a command waiting. -/
def smallWaiting : State := { small with pending := [.carrierLost 0 0] }
theorem test_small_laws_with_a_command :
    MoveQueueBounded smallWaiting ∧ OutageSettled smallWaiting ∧ PlanSound smallWaiting ∧ AllotmentFresh smallWaiting :=
  ⟨test_small_queue.1, test_small_outage, test_small_plan, test_small_allotment⟩
/-- `small` with one of its bounds. A definition that holds a proof is elaborated before the tests that follow it. -/
def boundedSmall : { s : State // QueuesBounded s } := ⟨small, by unfold QueuesBounded; decide +kernel⟩
theorem test_step_from_small : step smallWaiting = .next (after (.carrierLost 0 0) small) := rfl

/-! ### Control ports -/

theorem test_select_high :
    (State.reset.port .venue).selectLow = false ∧
      after (.setQuota .venue (Burst.whole [0, 1])) State.reset =
        State.reset.modPort .venue fun q => { q with dataOut := [] } := by decide +kernel
theorem test_start_up_takes_no_octet :
    inStartUp.starting = true ∧
      after (.writeTargetsElement (.tenant 0) (Clocked.whole [1])) inStartUp =
        inStartUp.modPort (.tenant 0) fun q => { q with dataOut := [0] } := by decide +kernel
theorem test_select_not_fallen_since_start_up :
    let s := small.modPort .venue fun q => { q with armed := false }
    (s.port .venue).armed = false ∧
      after (.unknownCommand .venue 0xFF (Clocked.whole [])) s = s.modPort .venue fun q => { q with dataOut := [0] } := by
  decide +kernel
theorem test_select_rises_in_an_octet :
    ((after (.selectRise .venue) (small.modPort .venue fun q => { q with assembly := [⟨true, true⟩] })).port .venue).assembly =
      [] := by decide +kernel
theorem test_select_falls :
    (State.reset.port .venue).selectLow = false ∧ (small.port .venue).selectLow = true ∧
      ((after (.selectFall .venue) State.reset).port .venue).armed = true := by decide +kernel

theorem test_unknown_codes :
    Ready small .venue ∧ commandOf 0x00 = none ∧ commandOf 0xFF = none ∧
      ((after (.unknownCommand .venue 0xFF (Clocked.whole [1, 2])) small).port .venue).result = .unknown := by
  unfold Ready; decide +kernel
theorem test_refused_codes :
    Ready small .venue ∧ commandKind .setLevel = .tenant ∧
      ((after (.setLevel .venue (Burst.whole [0, 0, 1])) small).port .venue).result = .rights ∧
      Ready small (.tenant 0) ∧ commandKind .setQuota = .venue ∧
      ((after (.setQuota (.tenant 0) (Burst.whole [0, 1])) small).port (.tenant 0)).result = .rights ∧
      Ready small (.tenant 1) ∧ (small.tenant 1).state ≠ .active ∧
      ((after (.readPlan (.tenant 1) (Burst.whole [])) small).port (.tenant 1)).result = .state ∧
      Ready small (.tenant 3) ∧ (small.tenant 3).state = .vacant ∧
      ((after (.readFault (.tenant 3) (Burst.whole [])) small).port (.tenant 3)).result = .state := by
  unfold Ready; decide +kernel
theorem test_parameters_missing :
    Ready small .venue ∧ isFixed .setLimit = true ∧ refusalOf small .venue .setLimit = none ∧
      [(0 : Byte), 1].length < paramCount true .setLimit ∧
      ((after (.setLimit .venue (Burst.whole [0, 1])) small).port .venue).result = .incomplete := by
  unfold Ready; decide +kernel
theorem test_parameters_go_on :
    let s := withCmd .venue (.collecting .setLimit [0]) small
    Ready s .venue ∧ (s.port .venue).cmd = .collecting .setLimit [0] ∧
      [(0 : Byte)].length + [(2 : Byte)].length < paramCount true .setLimit ∧
      [(0 : Byte)].length + [(2 : Byte), 100].length = paramCount true .setLimit ∧
      ((after (.setLimit .venue (.more (Clocked.whole [2]))) s).zone 0).live = 1000 ∧
      ((after (.setLimit .venue (.more (Clocked.whole [2, 100]))) s).zone 0).live = 612 := by
  unfold Ready; decide +kernel
theorem test_elements_in_parts :
    let s := withCmd .venue (.streaming .limits [1]) small
    let r := withCmd .venue (.reading (.grants 0) (some [9, 8, 7, 6, 5, 4]) 2) small
    Ready s .venue ∧ [(1 : Byte)].length + [(2 : Byte)].length = writeSize .limits ∧
      ((after (.writeLimitsElement .venue (Clocked.whole [2])) s).zone 0).live = 258 ∧
      ((after (.writeAlternatesElement (.tenant 0) (Clocked.whole [2]))
        (withCmd (.tenant 0) (.streaming .alternates [1]) small)).port (.tenant 0)).cmd = .streaming .alternates [1, 2] ∧
      Ready r .venue ∧ 2 + [(0 : Byte), 0, 0].length < readSize (.grants 0) ∧
      ((after (.readGrantsElement .venue (Clocked.whole [0, 0, 0])) r).port .venue).dataOut = [7, 6, 5] ∧
      (small.port .venue).cmd = .idle ∧
      ((after (.readGrantsElement .venue (Clocked.whole [0, 0, 0])) small).port .venue).dataOut = [0, 0, 0] := by
  unfold Ready; decide +kernel
theorem test_broken_octet_is_taken_again :
    let s := withCmd .venue (.collecting .setLimit [0, 2]) small
    let t := after (.setLimit .venue (.more ⟨[], [⟨true, true⟩, ⟨true, true⟩]⟩)) s
    ((after (.setLimit .venue (.more (Clocked.whole [100]))) (after (.selectFall .venue) (after (.selectRise .venue) t))).zone
      0).live = 612 := by decide +kernel
theorem test_bits_join_the_assembly :
    let held := fun (bits : List LineBit) =>
      (withCmd .venue (.collecting .setLimit [0, 2]) small).modPort .venue fun q => { q with assembly := bits.take 3 }
    let high := octetBits true 100
    let low := octetBits false 0x22
    ((after (.setLimit .venue (.more ⟨[], (high.drop 3).take 4⟩)) (held high)).port .venue).assembly = high.take 7 ∧
      ((after (.setLimit .venue (.more ⟨[], high.drop 3⟩)) (held high)).zone 0).live = 612 ∧
      ((after (.setLimit .venue (.more ⟨[], low.drop 3⟩)) (held low)).port .venue).lastCode = some 0x22 := by decide +kernel
theorem test_tail_takes_a_read_element :
    let s := withCmd .venue (.reading (.grants 0) none 0) small
    let taken := Progress.reading (.grants 0) (some (grantsElement small 0 0)) 0
    ((after (.readGrantsElement .venue ⟨[], [⟨true, false⟩]⟩) s).port .venue).cmd = taken ∧
      ((after (.readGrants .venue (.code ⟨[0], [⟨true, false⟩]⟩)) small).port .venue).cmd = taken := by decide +kernel
theorem test_last_octet_of_a_read_element :
    let s := withCmd .venue (.reading (.grants 0) (some [9, 8, 7, 6, 5, 4]) 3) small
    let t := after (.readGrantsElement .venue (Clocked.whole [0, 0, 0])) s
    Ready s .venue ∧ 3 + [(0 : Byte), 0, 0].length = readSize (.grants 0) ∧ (t.port .venue).dataOut = [6, 5, 4] ∧
      (t.port .venue).cmd = .reading (.grants 0) none 0 ∧ (t.port .venue).pointer = 1 := by unfold Ready; decide +kernel
theorem test_octets_past_a_reply :
    let s := withCmd .venue (.reading (.reply [1, 2, 3]) (some [1, 2, 3]) 2) small
    let t := after (.readStatus .venue (.more (Clocked.whole [0, 0, 0]))) s
    Ready s .venue ∧ (t.port .venue).dataOut = [3, 0, 0] ∧
      (t.port .venue).cmd = .reading (.reply [1, 2, 3]) (some [1, 2, 3]) 3 := by unfold Ready; decide +kernel

theorem test_window :
    Ready small (.tenant 0) ∧ (small.tenant 0).state = .active ∧
      ((after (.setWindow (.tenant 0) (Burst.whole [47, 47])) small).port (.tenant 0)).first = 47 ∧
      ((after (.setWindow (.tenant 0) (Burst.whole [0, 47])) small).port (.tenant 0)).result = .ok ∧
      ((after (.setWindow (.tenant 0) (Burst.whole [0, 48])) small).port (.tenant 0)).result = .range ∧
      ((after (.setWindow (.tenant 0) (Burst.whole [48, 48])) small).port (.tenant 0)).result = .range ∧
      ((after (.setWindow (.tenant 0) (Burst.whole [3, 2])) small).port (.tenant 0)).result = .range := by
  unfold Ready; decide +kernel
theorem test_streamed_codes :
    Ready small .venue ∧ Ready small (.tenant 0) ∧ (small.tenant 0).state = .active ∧
      ((after (.writeScene (.tenant 0) (Burst.whole [3])) small).port (.tenant 0)).cmd = .streaming (.scene 3) [] ∧
      ((after (.writeScene (.tenant 0) (Burst.whole [4])) small).port (.tenant 0)).result = .range ∧
      ((after (.readGrants .venue (Burst.whole [3])) small).port .venue).cmd = .reading (.grants 3) none 0 ∧
      ((after (.readGrants .venue (Burst.whole [4])) small).port .venue).result = .range := by
  unfold Ready; decide +kernel
theorem test_leading_parameter_in_a_later_burst :
    let awaitingNumber := fun c => withCmd .venue (.leading c) small
    let next := fun (c : Command) (b : Byte) =>
      (after (commandRow c .venue (.more (Clocked.whole [b]))) (awaitingNumber c)).port .venue
    Ready (awaitingNumber .readPlan) .venue ∧ (next .writeScene 3).cmd = .streaming (.scene 3) [] ∧
      (next .writeScene 4).result = .range ∧ (next .readPlan 3).cmd = .reading (.plan 3) none 0 ∧
      (next .readPlan 4).cmd = .idle ∧ (next .readGrants 3).cmd = .reading (.grants 3) none 0 ∧
      (next .readGrants 4).result = .range := by unfold Ready; decide +kernel
theorem test_codes_without_parameters :
    ((after (.writeTargets (.tenant 0) (Burst.whole [])) small).port (.tenant 0)).cmd = .streaming .targets [] ∧
      ((after (.writeAlternates (.tenant 0) (Burst.whole [])) small).port (.tenant 0)).cmd = .streaming .alternates [] ∧
      ((after (.readLoads (.tenant 0) (Burst.whole [])) small).port (.tenant 0)).cmd = .reading (.loads 0 0) none 0 ∧
      ((after (.writeWeights .venue (Burst.whole [])) small).port .venue).cmd = .streaming (.weights 0) [] ∧
      ((after (.readWeights .venue (Burst.whole [])) small).port .venue).cmd = .reading (.weights 0) none 0 ∧
      ((after (.readZones .venue (Burst.whole [])) small).port .venue).cmd = .reading .zones none 0 := by decide +kernel
theorem test_streamed_write_and_its_code :
    ((after (.writeLimits .venue (Burst.whole [2, 0, 1])) small).port .venue).cmd = .streaming .limits [1] ∧
      ((after (.writeLimits .venue (Burst.whole [2, 0, 1])) small).zone 0).live = 512 := by decide +kernel

theorem test_plan_element :
    let s := withCmd (.tenant 0) (.reading (.plan 0) none 0) ramping
    Reading s (.tenant 0) (.plan 0) ∧ (List.replicate 9 (0 : Byte)).length = 9 ∧
      ((after (.readPlanElement (.tenant 0) (Clocked.whole (List.replicate 9 0))) s).port (.tenant 0)).dataOut =
        [0, 1, 15, 15, 15, 0, 51, 8, 8] := by unfold Reading Ready; decide +kernel
theorem test_grants_element :
    let s := (withCmd .venue (.reading (.grants 0) none 0) small).modPort .venue fun q => { q with pointer := 1, last := 1 }
    Reading s .venue (.grants 0) ∧
      ((after (.readGrantsElement .venue (Clocked.whole (List.replicate 6 0))) s).port .venue).dataOut =
        [3, 132, 1, 244, 0, 142] ∧
      ((after (.readGrantsElement .venue (Clocked.whole (List.replicate 6 0))) s).port .venue).pointer = 0 := by
  unfold Reading Ready; decide +kernel
theorem test_zones_element :
    let s := withCmd .venue (.reading .zones none 0) small
    Reading s .venue .zones ∧
      ((after (.readZonesElement .venue (Clocked.whole (List.replicate 23 0))) s).port .venue).dataOut =
        [3, 232, 3, 232, 32, 3, 232, 2, 188, 1, 44, 0, 4, 2, 255, 0, 0, 0, 0, 0, 0, 0, 0] := by
  unfold Reading Ready; decide +kernel
theorem test_loads_element :
    let s := withCmd (.tenant 0) (.reading (.loads 0 2) none 0) small
    Reading s (.tenant 0) (.loads 0 2) ∧
      ((after (.readLoadsElement (.tenant 0) (Clocked.whole (List.replicate 10 0))) s).port (.tenant 0)).dataOut =
        [2, 0, 0, 0, 0, 0, 0, 0, 255, 255] ∧
      ((after (.readLoadsElement (.tenant 0) (Clocked.whole (List.replicate 10 0))) s).port (.tenant 0)).cmd =
        .reading (.loads 0 0) none 0 := by unfold Reading Ready; decide +kernel
theorem test_weights_element :
    let s := withCmd .venue (.reading (.weights 15) none 0) small
    Reading s .venue (.weights 15) ∧
      ((after (.readWeightsElement .venue (Clocked.whole [0])) s).port .venue).dataOut = [255] ∧
      ((after (.readWeightsElement .venue (Clocked.whole [0])) s).port .venue).cmd = .reading (.weights 0) none 0 := by
  unfold Reading Ready; decide +kernel
theorem test_read_status :
    Ready small (.tenant 1) ∧
      ((after (.readStatus (.tenant 1) (Burst.whole [0, 0, 0, 0])) small).port (.tenant 1)).dataOut = [0, 0xFF, 0, 0, 2] := by
  unfold Ready; decide +kernel
/-- `ramping` with one of its bounds. A definition that holds a proof is elaborated before the tests that follow it. -/
def boundedRamping : { s : State // MoveQueueBounded s } := ⟨ramping, by unfold MoveQueueBounded; decide +kernel⟩
theorem test_attention :
    small.starting = false ∧ (small.port .venue).log = true ∧ attentionAsserted small .venue = true ∧
      (small.port (.tenant 1)).log = false ∧ attentionAsserted small (.tenant 1) = false ∧
      attentionAsserted (small.modPort (.tenant 1) fun q => { q with movesIdle := true }) (.tenant 1) = true ∧
      attentionAsserted (small.modPort .venue fun q => { q with log := false, storeDone := true }) .venue = true ∧
      attentionAsserted inStartUp .venue = false := by decide +kernel
theorem test_read_store_page :
    Ready small .venue ∧ small.storeOp = none ∧ (List.replicate 34 (0 : Byte)).length = 34 ∧
      ((after (.readStorePage .venue (Burst.whole (5 :: List.replicate 34 0))) small).port .venue).dataOut =
        [0, 0] ++ List.replicate 32 0xFF ++ [0, 1] ∧
      ((after (.readStorePage .venue (Burst.whole (6 :: List.replicate 34 0))) small).port .venue).result = .range ∧
      ((after (.readStorePage .venue (Burst.whole (5 :: List.replicate 34 0)))
        { small with storeOp := some (.lock 0) }).port .venue).result = .busy := by unfold Ready; decide +kernel
theorem test_read_fault_finds_an_entry :
    Ready small .venue ∧ small.reader .venue = some ⟨0, 0⟩ ∧ small.log[0]? = some (.pageInvalid 0 0) ∧
      visibleTo .venue (.pageInvalid 0 0) = true ∧
      ((after (.readFault .venue (Burst.whole (List.replicate 16 0))) small).port .venue).dataOut =
        [0, 13, 0, 0, 0, 0, 0, 0, 255, 255, 255, 255, 255, 255, 0, 255, 255] ∧
      (after (.readFault .venue (Burst.whole [])) small).reader .venue = some ⟨1, 0⟩ := by unfold Ready; decide +kernel
theorem test_read_fault_finds_none :
    Ready small (.tenant 1) ∧ (small.tenant 1).state ≠ .vacant ∧ small.reader (.tenant 1) = some ⟨6, 0⟩ ∧ small.log.length = 6 ∧
      ((after (.readFault (.tenant 1) (Burst.whole (List.replicate 16 0))) small).port (.tenant 1)).dataOut =
        [0, 0, 0, 0, 0, 0, 255, 0] ++ List.replicate 9 255 := by unfold Ready; decide +kernel

/-! ### Tenants -/

theorem test_admit_tenant :
    Ready small .venue ∧ (small.tenant 2).state = .vacant ∧ quotaSum (fun _ => true) small = 20 ∧
      ((after (.admitTenant .venue (Burst.whole [2, 12, 6])) small).tenant 2).state = .active ∧
      ((after (.admitTenant .venue (Burst.whole [2, 12, 1])) small).port .venue).result = .ok := by
  unfold Ready; decide +kernel
theorem test_admit_tenant_refused :
    (small.tenant 0).state ≠ .vacant ∧
      ((after (.admitTenant .venue (Burst.whole [4, 0, 1])) small).port .venue).result = .range ∧
      ((after (.admitTenant .venue (Burst.whole [0, 0, 1])) small).port .venue).result = .state ∧
      ((after (.admitTenant .venue (Burst.whole [2, 0, 0])) small).port .venue).result = .range ∧
      ((after (.admitTenant .venue (Burst.whole [2, 0, 7])) small).port .venue).result = .range ∧
      ((after (.admitTenant .venue (Burst.whole [2, 13, 1])) small).port .venue).result = .range := by decide +kernel
theorem test_set_quota :
    Ready small .venue ∧ (small.tenant 0).state ≠ .vacant ∧ 24 + quotaSum (fun u => u != 0) small = 32 ∧
      ((after (.setQuota .venue (Burst.whole [0, 24])) small).tenant 0).quota = 24 ∧
      ((after (.setQuota .venue (Burst.whole [0, 25])) small).port .venue).result = .range ∧
      ((after (.setQuota .venue (Burst.whole [2, 0])) small).port .venue).result = .state ∧
      ((after (.setQuota .venue (Burst.whole [4, 0])) small).port .venue).result = .range := by unfold Ready; decide +kernel
theorem test_suspend_tenant :
    Ready ramping .venue ∧ (ramping.tenant 0).state = .active ∧ (ramping.tenant 1).state ≠ .active ∧
      (after (.suspendTenant .venue (Burst.whole [0])) ramping).moves = [] ∧
      ((after (.suspendTenant .venue (Burst.whole [0])) ramping).cell 0 0).home = .sector 0 ∧
      ((after (.suspendTenant .venue (Burst.whole [1])) ramping).port .venue).result = .state ∧
      ((after (.suspendTenant .venue (Burst.whole [4])) ramping).port .venue).result = .range := by
  unfold Ready; decide +kernel
theorem test_suspension_in_a_read_octet :
    let s := (withCmd (.tenant 0) (.reading (.grants 0) (some [9, 8, 7, 6, 5, 4]) 0) small).modPort (.tenant 0) fun q =>
      { q with assembly := (octetBits true 0).take 3 }
    let t := after (.suspendTenant .venue (Burst.whole [0])) s
    let q := (after (.readGrantsElement (.tenant 0) ⟨[], (octetBits true 0).drop 3⟩) t).port (.tenant 0)
    (q.dataOut, q.cmd, q.result, q.assembly) = ([0], .idle, .state, []) := by decide +kernel
theorem test_resume_tenant :
    Ready small .venue ∧ (small.tenant 1).state = .suspended ∧ (small.tenant 0).state ≠ .suspended ∧
      ((after (.resumeTenant .venue (Burst.whole [1])) small).tenant 1).state = .active ∧
      ((after (.resumeTenant .venue (Burst.whole [0])) small).port .venue).result = .state ∧
      ((after (.resumeTenant .venue (Burst.whole [4])) small).port .venue).result = .range := by unfold Ready; decide +kernel
theorem test_retire_tenant :
    Ready ramping .venue ∧ (ramping.tenant 0).state ≠ .vacant ∧ (ramping.tenant 2).state = .vacant ∧
      (after (.retireTenant .venue (Burst.whole [0])) ramping).tenant 0 = TenantRec.vacant ∧
      ((after (.retireTenant .venue (Burst.whole [0])) ramping).cell 0 0).home = .dark ∧
      ((after (.retireTenant .venue (Burst.whole [2])) ramping).port .venue).result = .state ∧
      ((after (.retireTenant .venue (Burst.whole [4])) ramping).port .venue).result = .range := by unfold Ready; decide +kernel
theorem test_set_level :
    Ready small (.tenant 0) ∧ (small.tenant 0).state = .active ∧ (small.tenant 0).sectorCount = 3 ∧
      tget ((after (.setLevel (.tenant 0) (Burst.whole [2, 15, 255])) small).tenant 0).levels 2 = 4095 ∧
      ((after (.setLevel (.tenant 0) (Burst.whole [2, 16, 0])) small).port (.tenant 0)).result = .clamped ∧
      ((after (.setLevel (.tenant 0) (Burst.whole [0, 2, 0])) small).cell 0 0).request = 512 ∧
      ((after (.setLevel (.tenant 0) (Burst.whole [3, 0, 0])) small).port (.tenant 0)).result = .range := by
  unfold Ready; decide +kernel
theorem test_carrier_events :
    small.starting = false ∧ (small.tenant 0).state ≠ .vacant ∧ 0 < (small.tenant 0).sectorCount ∧
      tget (small.tenant 0).presence 0 ≠ false ∧ ((after (.carrierLost 0 0) small).cell 0 0).request = 0 ∧
      ((after (.carrierLost 0 0) small).log.getLast?.map Entry.kind) = some .carrierLost ∧
      tget (small.tenant 1).presence 1 ≠ true ∧ tget ((after (.carrierBack 1 1) small).tenant 1).presence 1 = true := by
  decide +kernel
theorem test_carrier_events_not_counted :
    ¬ (3 < (small.tenant 0).sectorCount) ∧ (small.tenant 2).state = .vacant ∧ inStartUp.starting = true ∧
      (after (.carrierBack 0 3) small).log = small.log ∧ (after (.carrierBack 2 0) small).log = small.log ∧
      (after (.carrierLost 0 0) inStartUp).log = small.log ∧ (after (.carrierBack 0 0) small).log = small.log := by
  decide +kernel

/-! ### Targets, alternates, limits, pins and the venue mode -/

theorem test_target_without_a_move :
    ((withPin 0 small).zone 0).pinned = true ∧ setTarget 0 0 .dark .tenant (withPin 0 small) = withPin 0 small ∧
      (small.zone 2).pinned = false ∧ inService small 2 = false ∧
      ((setTarget 2 0 (.sector 2) .scene small).cell 2 0).home = .sector 2 ∧
      (small.zone 0).pinned = false ∧ inService small 0 = true ∧ (small.cell 0 0).target = .sector 0 ∧
      setTarget 0 0 (.sector 0) .scene small = small ∧ moveAt small 0 0 = none ∧
      ((setTarget 0 0 (.sector 2) .scene small).cell 0 0).source = .scene := by decide +kernel
theorem test_target_of_a_waiting_move :
    (waiting.cell 0 0).target ≠ .sector 0 ∧ (moveAt waiting 0 0).map Move.state = some .waiting ∧
      (setTarget 0 0 (.sector 0) .tenant waiting).moves = [] ∧
      (setTarget 0 0 (.sector 2) .scene waiting).moves.map (fun m => (m.dst, m.origin)) = [(.sector 2, .scene)] := by
  decide +kernel
theorem test_target_of_a_ramping_move :
    (moveAt ramping 0 0).map Move.dir = some .forward ∧ (moveAt reversing 0 0).map Move.dir = some .reverse ∧
      (setTarget 0 0 (.sector 0) .scene ramping).moves.map Move.dir = [.reverse] ∧
      (setTarget 0 0 (.sector 1) .scene reversing).moves.map Move.dir = [.forward] ∧
      (setTarget 0 0 (.sector 2) .scene ramping).moves = ramping.moves ∧
      (setTarget 0 0 (.sector 2) .scene reversing).moves = reversing.moves := by decide +kernel
theorem test_target_element :
    let s := withCmd (.tenant 0) (.streaming .targets []) small
    Streaming s (.tenant 0) .targets ∧ destOf 3 0x0E = some .dark ∧ destOf 3 2 = some (.sector 2) ∧ destOf 3 3 = none ∧
      (after (.writeTargetsElement (.tenant 0) (Clocked.whole [2])) s).moves.map Move.state = [.ramping] ∧
      ((after (.writeTargetsElement (.tenant 0) (Clocked.whole [3])) s).port (.tenant 0)).result = .skipped ∧
      ((after (.writeTargetsElement (.tenant 0) (Clocked.whole [2])) (withPin 0 s)).port (.tenant 0)).result = .skipped := by
  unfold Streaming Ready; decide +kernel
theorem test_request_move :
    Ready small (.tenant 0) ∧ (small.tenant 0).state = .active ∧
      (after (.requestMove (.tenant 0) (Burst.whole [0, 0x0E])) small).moves.map Move.dst = [.dark] ∧
      ((after (.requestMove (.tenant 0) (Burst.whole [47, 2])) small).cell 47 0).home = .sector 2 ∧
      ((after (.requestMove (.tenant 0) (Burst.whole [48, 2])) small).port (.tenant 0)).result = .range ∧
      ((after (.requestMove (.tenant 0) (Burst.whole [0, 3])) small).port (.tenant 0)).result = .range ∧
      ((after (.requestMove (.tenant 0) (Burst.whole [0, 2])) (withPin 0 small)).port (.tenant 0)).result = .skipped := by
  unfold Ready; decide +kernel
theorem test_cancel_move :
    Ready waiting (.tenant 0) ∧ (waiting.tenant 0).state = .active ∧
      (after (.cancelMove (.tenant 0) (Burst.whole [0])) waiting).moves = [] ∧
      ((after (.cancelMove (.tenant 0) (Burst.whole [0])) waiting).port (.tenant 0)).movesIdle = true ∧
      ((after (.cancelMove (.tenant 0) (Burst.whole [48])) waiting).port (.tenant 0)).result = .range ∧
      ((after (.cancelMove (.tenant 0) (Burst.whole [0])) (withPin 0 waiting)).port (.tenant 0)).result = .skipped := by
  unfold Ready; decide +kernel
theorem test_alternates_element :
    let s := withCmd (.tenant 0) (.streaming .alternates []) small
    Streaming s (.tenant 0) .alternates ∧
      ((after (.writeAlternatesElement (.tenant 0) (Clocked.whole [2, 0, 2])) s).cell 0 0).alternates = [2, 0] ∧
      ((after (.writeAlternatesElement (.tenant 0) (Clocked.whole [15, 15, 15])) s).cell 0 0).alternates = [] ∧
      ((after (.writeAlternatesElement (.tenant 0) (Clocked.whole [15, 1, 1])) s).cell 0 0).alternates = [1] ∧
      ((after (.writeAlternatesElement (.tenant 0) (Clocked.whole [1, 3, 15])) s).port (.tenant 0)).result = .skipped := by
  unfold Streaming Ready; decide +kernel
theorem test_set_limit :
    Ready small .venue ∧ ((after (.setLimit .venue (Burst.whole [0, 3, 232])) small).port .venue).result = .ok ∧
      ((after (.setLimit .venue (Burst.whole [0, 3, 233])) small).port .venue).result = .clamped ∧
      ((after (.setLimit .venue (Burst.whole [47, 0, 1])) small).zone 47).live = 0 ∧
      ((after (.setLimit .venue (Burst.whole [48, 0, 0])) small).port .venue).result = .range ∧
      (after (.setLimit .venue (Burst.whole [0, 1, 0])) small).link 0 =
        { small.link 0 with queue := [.set 0 256 false], sending := .queued } := by unfold Ready; decide +kernel
theorem test_limits_element :
    let s := withCmd .venue (.streaming .limits []) small
    Streaming s .venue .limits ∧
      ((after (.writeLimitsElement .venue (Clocked.whole [4, 0])) s).port .venue).result = .clamped ∧
      ((after (.writeLimitsElement .venue (Clocked.whole [0, 1])) s).zone 0).live = 1 := by
  unfold Streaming Ready; decide +kernel
theorem test_pin_zone :
    Ready ramping .venue ∧ (ramping.zone 0).pinned = false ∧ ((withPin 0 ramping).zone 0).pinned = true ∧
      ((after (.pinZone .venue (Burst.whole [0])) ramping).cell 0 0).target = .sector 1 ∧
      ((after (.pinZone .venue (Burst.whole [0])) reversing).cell 0 0).target = .sector 0 ∧
      (after (.pinZone .venue (Burst.whole [0])) waiting).moves = [] ∧
      ((after (.pinZone .venue (Burst.whole [48])) ramping).port .venue).result = .range := by unfold Ready; decide +kernel
/-- `waiting` with one of its bounds. A definition that holds a proof is elaborated before the tests that follow it. -/
def boundedWaiting : { s : State // MoveQueueBounded s } := ⟨waiting, by unfold MoveQueueBounded; decide +kernel⟩
theorem test_unpin_zone :
    ((after (.unpinZone .venue (Burst.whole [47])) (withPin 47 small)).zone 47).pinned = false ∧
      ((after (.unpinZone .venue (Burst.whole [48])) small).port .venue).result = .range := by decide +kernel
theorem test_venue_mode :
    Ready small .venue ∧ modeOf 1 = some .standby ∧ modeOf 0 = some .event ∧ modeOf 2 = none ∧
      ((after (.setVenueMode .venue (Burst.whole [2])) small).port .venue).result = .range ∧
      ((after (.setVenueMode .venue (Burst.whole [1])) { small with standbyDark := #v[true, false, false, false] }).zone
        0).effLimit = 0 := by unfold Ready; decide +kernel
theorem test_standby_classes :
    ((after (.setStandbyClasses .venue (Burst.whole [0x01])) { small with venueMode := .standby }).zone 0).effLimit = 0 ∧
      ((after (.setStandbyClasses .venue (Burst.whole [0xF0])) small).standbyDark) = Vector.replicate 4 false := by
  decide +kernel

/-! ### Allotment (the tables of 2.8) -/

/-- A function of the tenant, given by its four values. -/
def four (a b c d : Nat) (t : Tenant) : Nat := tget #v[a, b, c, d] t
/-- The grants and the gains of a zone whose tenants are all admitted. -/
def allot (eff : Nat) (share q : Tenant → Nat) : List (Nat × Nat) :=
  allTenants.map fun t =>
    (grantOf eff (fun _ => true) share q t, gainOf (q t) (grantOf eff (fun _ => true) share q t))

theorem test_allot_competing :
    allot 1000 (four 8 8 8 8) (four 400 100 350 290) = [(328, 209), (100, 256), (302, 220), (270, 238)] := by decide +kernel
theorem test_allot_heat :
    allot 500 (four 8 8 8 8) (four 400 100 350 290) = [(136, 87), (100, 256), (133, 97), (131, 115)] := by decide +kernel
theorem test_allot_all_met :
    allot 1000 (four 8 8 8 8) (four 100 200 0 300) = [(100, 256), (200, 256), (0, 0), (300, 256)] := by decide +kernel
theorem test_allot_suspended_and_vacant :
    allTenants.map (fun t => grantOf 800 (fun u => u != 3) (four 12 10 0 0) (four 500 0 400 0) t) = [467, 0, 333, 0] := by
  decide +kernel
theorem test_allot_leftover :
    allot 10 (four 0 0 0 0) (four 5 5 5 5) = [(3, 153), (3, 153), (2, 102), (2, 102)] ∧
      allot 3 (four 8 8 8 8) (four 5 5 5 5) = [(1, 51), (1, 51), (1, 51), (0, 0)] ∧
      allot 0 (four 8 8 8 8) (four 5 5 5 5) = [(0, 0), (0, 0), (0, 0), (0, 0)] := by decide +kernel

/-- `small` with HEAT active at the remote of Z0, which is DEGRADED. -/
def heated : State :=
  small.modRemote 0 fun r =>
    { r with state := .degraded, alarms := tset r.alarms 0 { AlarmRec.clear with active := true, escalation := 119 } }

theorem test_limit_and_request :
    inService small 2 = false ∧ ((pass 2 small).zone 2).effLimit = 0 ∧
      dimmed { small with venueMode := .standby, standbyDark := #v[true, false, false, false] } 0 = true ∧
      ((pass 0 { small with venueMode := .standby, standbyDark := #v[true, false, false, false] }).zone 0).effLimit = 0 ∧
      inService heated 0 = true ∧ dimmed heated 0 = false ∧ (alarmAt heated 0 .heat).active = true ∧
      ((pass 0 heated).zone 0).effLimit = 500 := by decide +kernel
theorem test_requests :
    (small.tenant 1).state ≠ .active ∧ ((pass 0 small).cell 0 1).request = 0 ∧
      (small.tenant 0).state = .active ∧ moveAt small 0 0 = none ∧ ((pass 0 small).cell 0 0).request = 700 ∧
      (moveAt ramping 0 0).map Move.state = some .ramping ∧ ((pass 0 ramping).cell 0 0).request = 900 ∧
      (moveAt waiting 0 0).map Move.state = some .waiting ∧ ((pass 0 waiting).cell 0 0).request = 700 := by decide +kernel
theorem test_grants_of_a_pass :
    QuotaBounded small ∧ admitted small 3 = false ∧ sumTenants (fun t => requestOf small 0 t) ≤ effLimitOf small 0 ∧
      effLimitOf small 1 < sumTenants (fun t => requestOf small 1 t) ∧ ((pass 1 small).cell 1 0).grant = 500 := by
  unfold QuotaBounded; decide +kernel
theorem test_allotment_bounds :
    QuotaBounded small ∧ LimitsBounded small ∧ FreshAt small 1 ∧ FreshAt small 2 ∧ headroom small 0 = 300 ∧
      (small.zone 1).effLimit < sumTenants (fun t => (small.cell 1 t).request) ∧ headroom small 1 = 0 ∧
      (small.zone 2).effLimit = 0 := by unfold QuotaBounded LimitsBounded FreshAt; decide +kernel

/-- `small` after HEAT has come on at Z0, with the queue of F0 as given: a pass halves the effective limit of Z0. -/
def owing (q : List Frame) : State := withQueue q .nothing heated

theorem test_owed_sets :
    ((pass 0 (owing [])).link 0).queue = [.set 0 500 false] ∧
      ((pass 0 (owing [.chainMute, .set 0 9 true])).link 0).queue = [.chainMute, .set 0 500 false] ∧
      ((pass 0 (withQueue [.set 0 9 true] .queued heated)).link 0).queue = [.set 0 9 true, .set 0 500 false] ∧
      ((pass 0 (owing (List.replicate 4 .chainMute))).remote 0).setOwed = true ∧
      (pass 0 small).links = small.links ∧ (small.zone 47).binding = none := by decide +kernel
theorem test_abandoned_set_beside_an_owed_one :
    let s := (owing [.set 0 9 true]).modRemote 0 fun r => { r with setOwed := true }
    ((queueSet 0 s).link 0).queue = [.set 0 1000 false] ∧ ((queueSet 0 s).remote 0).setOwed = true := by decide +kernel
theorem test_composites :
    (small.zone 47).binding = none ∧ composite small 47 = none ∧ (small.cell 0 1).gain = 0 ∧
      composite small 0 = some (⟨0, 0⟩, [⟨0, 0, 32, 256⟩]) ∧
      composite ramping 0 = some (⟨0, 0⟩, [⟨0, 0, 24, 256⟩, ⟨0, 1, 8, 256⟩]) ∧
      uplink ramping 0 0 = some [(0, 24)] ∧ uplink ramping 0 1 = some [(0, 8), (1, 32)] ∧ uplink small 1 0 = none ∧
      uplink small 0 3 = none := by decide +kernel

/-! ### The Move Queue and the Ramp Engine -/

/-- `small` with T0's cell at Z1 pending. -/
def pendingZ1 : State := small.modCell 1 0 fun c => { c with target := .dark }

theorem test_settle :
    MoveQueueBounded pendingZ1 ∧ nextAdmission pendingZ1 = some (0, 1) ∧ pendingZ1.admitPos = 3 ∧
      (settle pendingZ1).moves = [⟨0, 1, .sector 1, .dark, 0, .forward, .ramping, .tenant⟩] ∧
      (settle pendingZ1).admitPos = 0 := by unfold MoveQueueBounded; decide +kernel
theorem test_admission :
    nextAdmission (admitNext pendingZ1) = none ∧ admitNext small = small ∧
      admitNext pendingZ1 =
        { pendingZ1 with moves := [⟨0, 1, .sector 1, .dark, 0, .forward, .waiting, .tenant⟩], admitPos := 0 } := by
  decide +kernel
theorem test_slots_by_age :
    let s := withMove 1 .dark 0 .forward .waiting waiting
    s.moves.map Move.state = [.waiting, .waiting] ∧ (settle s).moves.map Move.state = [.ramping, .ramping] ∧
      (grantSlots 1 s).moves.map Move.state = [.ramping, .waiting] := by decide +kernel
theorem test_ramp_expiry :
    MoveQueueBounded ramping ∧ ramping.rampTimer.running = true ∧
      (after .rampTimerExpiry ramping).moves.map Move.weight = [12] ∧
      (after .rampTimerExpiry reversing).moves.map Move.weight = [4] ∧
      ({ ramping with rampTimer := ⟨false, 10⟩ }).rampTimer.running = false := by unfold MoveQueueBounded; decide +kernel
theorem test_ramp_completes :
    let s := { ramping with rampStep := 24 }
    (after .rampTimerExpiry s).moves = [] ∧ ((after .rampTimerExpiry s).cell 0 0).home = .sector 1 ∧
      ((after .rampTimerExpiry s).cell 0 0).request = 900 ∧
      ((after .rampTimerExpiry s).port (.tenant 0)).movesIdle = true := by decide +kernel

/-! ### Scenes -/

theorem test_scene_slots :
    Ready small (.tenant 0) ∧ (small.tenant 0).state = .active ∧
      ((sceneAt (after (.storeScene (.tenant 0) (Burst.whole [3])) small) 0 3).map fun v => tget v 1) =
        some (.dest (.sector 1)) ∧
      sceneAt (after (.clearScene (.tenant 0) (Burst.whole [3])) small) 0 3 = none ∧
      ((after (.storeScene (.tenant 0) (Burst.whole [4])) small).port (.tenant 0)).result = .range ∧
      ((after (.clearScene (.tenant 0) (Burst.whole [4])) small).port (.tenant 0)).result = .range := by
  unfold Ready; decide +kernel
/-- `small` with T0's port STREAMING to scene slot 0. -/
def writingScene : State := withCmd (.tenant 0) (.streaming (.scene 0) []) small
theorem test_scene_element :
    Streaming writingScene (.tenant 0) (.scene 0) ∧ sceneEntryOf 3 0x0D = some .keep ∧ sceneEntryOf 3 3 = none ∧
      ((sceneAt (after (.writeSceneElement (.tenant 0) (Clocked.whole [0x0E])) writingScene) 0 0).map fun v =>
        (tget v 0, tget v 1)) = some (.dest .dark, .keep) ∧
      ((after (.writeSceneElement (.tenant 0) (Clocked.whole [3])) writingScene).port (.tenant 0)).result = .skipped := by
  unfold Streaming Ready; decide +kernel
/-- `small` with a scene of T0: Z0 to S2, Z1 to DARK, every other zone KEEP. -/
def withScene : State :=
  setScene 0 0 (some (tset (tset (Vector.replicate 48 .keep) 0 (.dest (.sector 2))) 1 (.dest .dark))) small
theorem test_target_written_in_outage :
    let recalled := setTarget 2 0 (.sector 2) .scene small
    (recalled.cell 2 0).source = .scene ∧ ((setTarget 2 0 (.sector 1) .tenant recalled).cell 2 0).source = .tenant ∧
      ((setTarget 2 0 (.sector 2) .tenant recalled).cell 2 0).source = .tenant := by decide +kernel
theorem test_recall_in_outage :
    let s := setScene 0 0 (some (tset (Vector.replicate 48 .keep) 2 (.dest (.sector 2)))) small
    let c := (after (.recallScene (.tenant 0) (Burst.whole [0])) s).cell 2 0
    inService s 2 = false ∧ (s.cell 2 0).source = .tenant ∧
      (c.home, c.target, c.source, c.holdOff) = (.sector 2, .sector 2, .scene, 6) := by decide +kernel
theorem test_recall_scene :
    Ready withScene (.tenant 0) ∧ sceneAt withScene 0 0 ≠ none ∧ sceneAt withScene 0 1 = none ∧
      (after (.recallScene (.tenant 0) (Burst.whole [0])) withScene).moves.map (fun m => (m.zone, m.origin)) =
        [(0, .scene), (1, .scene)] ∧
      ((after (.recallScene (.tenant 0) (Burst.whole [0])) withScene).cell 0 0).holdOff = 6 ∧
      ((after (.recallScene (.tenant 0) (Burst.whole [1])) withScene).port (.tenant 0)).result = .state ∧
      ((after (.recallScene (.tenant 0) (Burst.whole [4])) withScene).port (.tenant 0)).result = .range ∧
      ((after (.recallScene (.tenant 0) (Burst.whole [0])) (withPin 0 withScene)).port (.tenant 0)).result = .skipped := by
  unfold Ready; decide +kernel

/-! ### Settings -/

/-- SET_SPREADING on T0's port with the high water, low water, debounce and long count given. -/
def spreadingCommand (h1 h0 l1 l0 debounce long : Byte) : State :=
  after (.setSpreading (.tenant 0) (Burst.whole [0xFF, h1, h0, l1, l0, debounce, long, 255])) small
theorem test_set_spreading :
    Ready small (.tenant 0) ∧ be16 0x2F 0xD0 = 12240 ∧
      ((spreadingCommand 0x2F 0xD0 0x2F 0xCF 1 4).tenant 0).spreading = ⟨true, true, 12240, 12239, 1, 4, 255⟩ ∧
      ((spreadingCommand 0x2F 0xD0 0 0 15 255).port (.tenant 0)).result = .ok ∧
      ((spreadingCommand 0 1 0 0 16 4).port (.tenant 0)).result = .clamped ∧
      ((spreadingCommand 0 1 0 0 0 3).tenant 0).spreading = ⟨true, true, 1, 0, 1, 4, 255⟩ ∧
      ((spreadingCommand 0x2F 0xD1 0 0 1 4).port (.tenant 0)).result = .range ∧
      ((spreadingCommand 1 0 1 0 1 4).port (.tenant 0)).result = .range := by unfold Ready; decide +kernel
/-- `heated` with one of its bounds. A definition that holds a proof is elaborated before the tests that follow it. -/
def boundedHeated : { s : State // QuotaBounded s } := ⟨heated, by unfold QuotaBounded; decide +kernel⟩
theorem test_settings :
    Ready small .venue ∧ (after (.setCensus .venue (Burst.whole [0])) small).censusInterval = 1 ∧
      (after (.setRamp .venue (Burst.whole [1, 33])) small).rampStep = 32 ∧
      (after (.setRamp .venue (Burst.whole [255, 32])) small).rampTick = 255 ∧
      (after (.setSupervision .venue (Burst.whole [4, 1, 8, 9])) small).pollInterval = 5 ∧
      (after (.setSupervision .venue (Burst.whole [5, 16, 7, 8])) small).lossThreshold = 15 ∧
      tget (after (.setEscalation .venue (Burst.whole [3, 255])) small).escalation 3 = 255 ∧
      ((after (.setEscalation .venue (Burst.whole [4, 0])) small).port .venue).result = .range ∧
      (after (.setWake .venue (Burst.whole [1, 0, 0])) small).wakeThreshold = 256 := by unfold Ready; decide +kernel
theorem test_weights_element_written :
    let s := withCmd .venue (.streaming (.weights 15) []) small
    Streaming s .venue (.weights 15) ∧
      tget (after (.writeWeightsElement .venue (Clocked.whole [9])) s).weights 15 = 9 ∧
      ((after (.writeWeightsElement .venue (Clocked.whole [9])) s).port .venue).cmd = .streaming (.weights 0) [] := by
  unfold Streaming Ready; decide +kernel
theorem test_set_derate :
    Ready heated .venue ∧ ((after (.setDerate .venue (Burst.whole [0, 33])) heated).zone 0).effLimit = 1000 ∧
      ((after (.setDerate .venue (Burst.whole [0, 33])) heated).port .venue).result = .clamped ∧
      tget (after (.setDerate .venue (Burst.whole [3, 0])) heated).derate 3 = 0 ∧
      ((after (.setDerate .venue (Burst.whole [4, 0])) heated).port .venue).result = .range := by unfold Ready; decide +kernel

/-! ### The census (the figures of 5.11) -/

/-- The spreading settings of 5.11. -/
def halftime : Spreading := ⟨true, false, 1000, 700, 2, 4, 6⟩
theorem test_overload_states :
    nextOverload halftime 1003 .calm = .rising 1 ∧ nextOverload halftime 1003 (.rising 1) = .overloaded 0 ∧
      nextOverload halftime 748 (.overloaded 0) = .overloaded 1 ∧ nextOverload halftime 612 (.overloaded 1) = .falling 1 1 ∧
      nextOverload halftime 680 (.falling 1 1) = .calm ∧ nextOverload halftime 700 (.falling 1 1) = .overloaded 1 ∧
      nextOverload halftime 999 (.rising 1) = .calm ∧ nextOverload halftime 999 .calm = .calm ∧
      nextOverload halftime 700 (.overloaded 65535) = .overloaded 65535 := by decide +kernel
theorem test_saturated :
    saturated halftime (.overloaded 3) (.overloaded 4) = some 4 ∧ saturated halftime (.overloaded 7) (.overloaded 8) = none ∧
      saturated { halftime with repeats := true } (.overloaded 7) (.overloaded 8) = some 8 ∧
      saturated halftime (.falling 1 4) (.overloaded 4) = none := by decide +kernel
/-- A cell of T0 homed and settled at a sector. -/
def homed (z : Zone) (k : Sector) (occ : Nat) (alts : List Sector) (hold : Nat) (s : State) : State :=
  (withRemote z .alive s).modCell z 0 fun c =>
    { c with home := .sector k, target := .sector k, occupancy := occ, alternates := alts, holdOff := hold }
/-- The cells of 5.11 whose sector is S1, as cells of T0, with S1 RISING; S2 takes its load from one cell. -/
def crowded : State :=
  (homed 30 1 255 [2] 0 (homed 31 1 238 [0] 0 (homed 32 1 204 [2] 3 (homed 33 1 170 [] 0 (homed 34 1 136 [2] 0
    (homed 36 2 255 [] 0 (homed 37 2 51 [] 0 (homed 1 1 0 [] 0 selected)))))))).modTenant 0 fun r =>
    { r with
      state := .active, quota := 12, sectorCount := 3, spreading := halftime
      census := tset r.census 1 ⟨1003, .rising 1, none⟩ }
theorem test_census :
    crowded.censusTimer.running = true ∧
      tget ((after .censusTimerExpiry crowded).tenant 0).census 1 = ⟨1003, .overloaded 0, some (30, 2)⟩ ∧
      ((after .censusTimerExpiry crowded).cell 30 0).holdOff = 5 ∧
      ((after .censusTimerExpiry crowded).cell 32 0).holdOff = 2 ∧
      (after .censusTimerExpiry crowded).moves.map (fun m => (m.zone, m.dst, m.origin)) =
        [(30, .sector 2, .balancer)] := by decide +kernel
theorem test_census_without_a_proposal :
    let s := crowded.modTenant 0 fun r => { r with census := tset r.census 2 ⟨0, .calm, some (36, 0)⟩ }
    tget ((after .censusTimerExpiry s).tenant 0).census 2 = ⟨306, .calm, none⟩ ∧
      ((after .censusTimerExpiry s).cell 36 0).target = .sector 2 := by decide +kernel
theorem test_loads_of_ramping_cells :
    let dark := small.modCell 47 0 fun c => { c with occupancy := 17 }
    sectorLoad (withMove 0 (.sector 1) 15 .forward .ramping small) 0 0 = 51 ∧
      sectorLoad (withMove 0 (.sector 1) 16 .forward .ramping small) 0 1 = 85 ∧
      sectorLoad (withMove 0 .dark 16 .forward .ramping small) 0 0 = 0 ∧
      sectorLoad (withMove 47 (.sector 1) 16 .forward .ramping dark) 0 1 = 34 := by decide +kernel
theorem test_winner :
    let s := measureTenant 0 crowded
    (1 < (s.tenant 0).sectorCount ∧ isOverloaded s 0 1 = true) ∧ eligible s 0 1 30 = true ∧ eligible s 0 1 32 = false ∧
      winner s 0 #v[0, 1003, 306, 0, 0, 0] 1 = some (30, 2) ∧
      winner s 0 #v[0, 1003, 745, 0, 0, 0] 1 = some (31, 0) ∧ winner s 0 #v[762, 1003, 745, 0, 0, 0] 1 = some (34, 2) ∧
      winner s 0 #v[762, 1003, 864, 0, 0, 0] 1 = none := by decide +kernel
/-- `small` in STANDBY, with the wake threshold at the occupancy of the venue and the wake debounce at 1. -/
def drowsy : State := { small with venueMode := .standby, wakeThreshold := 85, wakeDebounce := 1 }
theorem test_wake :
    wakeTotal drowsy = 85 ∧ (after .censusTimerExpiry drowsy).venueMode = .event ∧
      ((after .censusTimerExpiry drowsy).log.getLast?.map Entry.kind) = some .venueWake ∧
      (after .censusTimerExpiry { drowsy with wakeThreshold := 86 }).venueMode = .standby ∧
      (after .censusTimerExpiry { drowsy with wakeDebounce := 2 }).wakeCount = 1 ∧
      ({ drowsy with censusTimer := ⟨false, 10⟩ }).censusTimer.running = false := by decide +kernel

/-! ### Poll rounds and links -/

/-- `small` with the POLL of position 1 being sent on F0. -/
def polling : State := withRound 0 .poll .poll small
/-- `small` with the reply window of a position open on F0. -/
def awaiting (pos : Pos) : State := withRound pos (.window true) .nothing small
/-- The octets of a STATUS, the length octet first. -/
def statusOctets (address flags o1 o0 l1 l0 mute c01 c23 : Byte) : List Byte :=
  let covered := [address, 0x81, flags, 25, o1, o0, l1, l0, mute, c01, c23]
  14 :: covered ++ crcOctets covered
/-- The characters of a frame. -/
def chars (os : List Byte) : List LineChar := [.framing 0xC3, .framing 0x5A] ++ os.map .data

theorem test_bindings_of_a_round :
    BindingsDistinct polling ∧ BindingsDistinct (awaiting 0) ∧ BindingsDistinct (awaiting 3) ∧
      BindingsDistinct (withQueue [.set 0 9 true] .queued small) :=
  ⟨test_small_bindings, test_small_bindings, test_small_bindings, test_small_bindings⟩
theorem test_poll_round :
    small.starting = false ∧ small.pollTimer.running = true ∧ boundPositions small 0 = [0, 1, 2] ∧
      boundPositions small 1 = [] ∧ (after .pollTimerExpiry small).link 0 = polling.link 0 ∧
      ((after .pollTimerExpiry (withQueue [.chainMute] .queued small)).link 0).round = some ⟨0, .gap 1, []⟩ ∧
      ((after .pollTimerExpiry (small.modLink 0 fun l => { l with locked := false })).link 0).round =
        some ⟨0, .window false, []⟩ ∧
      ((after .pollTimerExpiry (awaiting 1)).link 0).round = some ⟨1, .window true, []⟩ := by decide +kernel
theorem test_poll_timer_stopped :
    inStartUp.starting = true ∧ ({ small with pollTimer := ⟨false, 50⟩ }).pollTimer.running = false ∧
      (after .pollTimerExpiry inStartUp).links = small.links := by decide +kernel
theorem test_poll_sent :
    polling.starting = false ∧ (polling.link 0).sending = .poll ∧ (polling.link 0).round = some ⟨0, .poll, []⟩ ∧
      (after (.pollSent 0) polling).link 0 = { (awaiting 0).link 0 with lineOut := chars ([5, 1, 1] ++ crcOctets [1, 1]) } := by
  decide +kernel
theorem test_reply_timer_goes_on :
    (small.link 0).round = none ∧ ((awaiting 0).link 0).round = some ⟨0, .window true, []⟩ ∧
      ((after (.replyTimerExpiry 0) (awaiting 0)).remote 0).missCount = 1 ∧
      ((after (.replyTimerExpiry 0) (awaiting 0)).link 0).round = some ⟨1, .poll, [(0, false)]⟩ ∧
      ((after (.replyTimerExpiry 0) (withQueue [.chainMute] .nothing (awaiting 0))).link 0).round =
        some ⟨1, .gap 1, [(0, false)]⟩ := by decide +kernel
theorem test_reply_timer_ends_the_round :
    ((after (.replyTimerExpiry 0) (awaiting 2)).link 0).round = none ∧
      ((after (.replyTimerExpiry 0) (withQueue [.chainMute] .nothing (awaiting 2))).link 0).sending = .queued ∧
      ((after (.replyTimerExpiry 0) (awaiting 3)).remotes = small.remotes) ∧ zoneAt small 0 3 = none := by decide +kernel
theorem test_good_status :
    let os := statusOctets 1 0 2 188 3 232 0 0x50 0x00
    os.length = (os.headD 0).toNat ∧ be16 (os.getD 12 0) (os.getD 13 0) = (crc16 ((os.drop 1).take 11)).toNat ∧
      ((after (.frameReceived 0 (chars os)) (awaiting 0)).remote 0).goodCount = 1 ∧
      ((after (.frameReceived 0 (chars os)) (awaiting 0)).cell 0 0).occupancy = 85 ∧
      ((after (.frameReceived 0 (chars os)) (awaiting 0)).link 0).round = some ⟨1, .poll, [(0, true)]⟩ := by decide +kernel
theorem test_other_frames_leave_the_window :
    let window := some ⟨0, .window true, []⟩
    ((after (.frameReceived 0 (chars (statusOctets 2 0 0 0 0 0 0 0 0))) (awaiting 0)).link 0).round = window ∧
      ((after (.frameReceived 0 (chars ([5, 1, 0x01] ++ crcOctets [1, 0x01]))) (awaiting 0)).link 0).round = window ∧
      ((after (.frameReceived 0 (chars [5, 1, 0x81, 0, 0])) (awaiting 0)).link 0).round = window ∧
      ((after (.frameReceived 0 (chars ([5, 1, 0x81] ++ crcOctets [1, 0x81]))) (awaiting 0)).link 0).round = window := by
  decide +kernel
theorem test_receiver :
    (small.link 0).locked = true ∧ ((after (.startPattern 0) small).link 0).rx = .collecting [] ∧
      ((after (.badLength 0 4) (after (.startPattern 0) small)).link 0).rx = .seeking ∧
      ((after (.badLength 0 65) (after (.startPattern 0) small)).link 0).rx = .seeking ∧
      ((after (.frameReceived 0 [.data 5]) (after (.startPattern 0) small)).link 0).rx = .collecting [5] ∧
      ((after (.frameReceived 0 [.framing 0xC3, .data 1]) small).link 0).afterC3 = false ∧
      (State.reset.link 0).locked = false ∧ after (.startPattern 0) State.reset = State.reset := by decide +kernel
theorem test_frame_transmitted :
    let s := (withQueue [.set 0 9 true, .chainMute] .queued small).modRemote 2 fun r => { r with setOwed := true }
    s.starting = false ∧ (s.link 0).sending = .queued ∧ lowestOwed s 0 = some 2 ∧
      ((after (.frameTransmitted 0) s).remote 0).sentLimit = 9 ∧
      ((after (.frameTransmitted 0) s).link 0).queue = [.chainMute, .set 2 0 false] ∧
      ((after (.frameTransmitted 0) s).remote 2).setOwed = false := by decide +kernel
theorem test_characters_of_frames :
    ((after (.frameTransmitted 0) (withQueue [.set 0 300 true] .queued small)).link 0).lineOut =
        chars ([8, 1, 2, 1, 44, 1] ++ crcOctets [1, 2, 1, 44, 1]) ∧
      ((after (.frameTransmitted 0) (withQueue [.chainMute] .queued small)).link 0).lineOut =
        chars ([5, 0x0F, 3] ++ crcOctets [0x0F, 3]) := by decide +kernel
theorem test_frame_transmitted_in_a_gap :
    let s := withRound 1 (.gap 2) .queued (withQueue [.chainMute, .chainMute, .chainMute] .queued small)
    ((after (.frameTransmitted 0) s).link 0).round = some ⟨1, .gap 1, []⟩ ∧
      ((after (.frameTransmitted 0) (after (.frameTransmitted 0) s)).link 0).round = some ⟨1, .poll, []⟩ ∧
      ((after (.frameTransmitted 0) (after (.frameTransmitted 0) s)).link 0).queue = [.chainMute] := by decide +kernel
/-- `small` in the last frame of the gap before position 2, with Z1, bound there, out of the chain. -/
def unboundInGap : State :=
  (withRound 1 (.gap 1) .queued (withQueue [.chainMute] .queued small)).modZone 1 fun r => { r with binding := none }
theorem test_binding_removed_in_a_gap :
    let alone := unboundInGap.modZone 2 fun r => { r with binding := none }
    boundPositions unboundInGap 0 = [0, 2] ∧ boundPositions alone 0 = [0] ∧
      ((after (.frameTransmitted 0) unboundInGap).link 0).round = some ⟨2, .poll, []⟩ ∧
      ((after (.lossOfLock 0) unboundInGap).link 0).round = some ⟨2, .window false, []⟩ ∧
      ((after (.frameTransmitted 0) alone).link 0).round = none ∧
      ((after (.lossOfLock 0) alone).link 0).round = none := by decide +kernel
theorem test_loss_of_lock :
    (polling.link 0).locked = true ∧ ((after (.lossOfLock 0) polling).link 0).round = some ⟨0, .window false, []⟩ ∧
      ((after (.lossOfLock 0) polling).link 0).sending = .nothing ∧
      ((after (.lossOfLock 0) inStartUp).link 0).locked = true := by decide +kernel
theorem test_return_of_lock :
    (State.reset.link 0).locked = false ∧ ((after (.returnOfLock 0) State.reset).link 0).sending = .queued ∧
      after (.returnOfLock 0) small = small := by decide +kernel

/-- `withScene` with one of its bounds. A definition that holds a proof is elaborated before the tests that follow it. -/
def boundedScene : { s : State // LimitsBounded s } := ⟨withScene, by unfold LimitsBounded; decide +kernel⟩
/-! ### Remote supervision -/

/-- A state with the miss count of Z0's remote. -/
def missed (n : Nat) (s : State) : State := s.modRemote 0 fun r => { r with missCount := n }
theorem test_miss_in_service :
    (small.remote 0).state = .alive ∧ ((handleMiss 0 (missed 2 small)).remote 0).state = .alive ∧
      ((handleMiss 0 (missed 3 ramping)).remote 0).state = .lost ∧ (handleMiss 0 (missed 3 ramping)).moves = [] ∧
      ((handleMiss 0 (missed 3 ramping)).cell 0 0).home = .sector 1 ∧
      ((handleMiss 0 (missed 3 ramping)).cell 0 0).occupancy = 0 ∧
      ((handleMiss 0 (missed 3 ramping)).zone 0).effLimit = 0 := by decide +kernel
theorem test_miss_out_of_service :
    let s := withRemote 0 .searching small
    (s.remote 0).silentReported = false ∧ (handleMiss 0 (missed 2 s)).log = s.log ∧
      ((handleMiss 0 (missed 3 s)).log.getLast?.map Entry.kind) = some .remoteSilent ∧
      (handleMiss 0 (handleMiss 0 (missed 3 s))).log = (handleMiss 0 (missed 3 s)).log ∧
      ((handleMiss 0 (missed 15 (withRemote 0 .lost small))).remote 0).missCount = 15 ∧
      ((handleMiss 0 (withRemote 0 .isolated small)).remote 0).unreachable = true ∧
      ((handleMiss 0 (withRemote 0 .unbound small)).remote 0).missCount = 1 := by decide +kernel

/-- A STATUS of a quiet remote that runs at the limit given. -/
def quietStatus (limit : Nat) : Status := ⟨0, 25, 0, limit, 0, #v[3, 0, 0, 15]⟩
theorem test_enters_service :
    let s := small.modRemote 2 fun r => { r with goodCount := 2 }
    (s.remote 2).state = .searching ∧ s.recoveryCount ≤ (s.remote 2).goodCount ∧
      ((replyService 2 s).remote 2).state = .alive ∧ ((replyService 2 s).zone 2).effLimit = 16383 ∧
      ((replyService 2 s).link 0).queue = [.set 2 16383 false] ∧ replyService 2 small = small ∧
      ((replyService 2 (withRemote 2 .lost s)).log.getLast?.map Entry.kind) = some .remoteBack := by decide +kernel
theorem test_service_follows_alarms :
    (heated.remote 0).state = .degraded ∧ replyService 0 heated = heated ∧
      ((replyService 0 (withRemote 0 .alive heated)).remote 0).state = .degraded ∧
      ((replyService 0 (withRemote 0 .degraded small)).remote 0).state = .alive ∧
      replyService 0 (withRemote 0 .isolated small) = withRemote 0 .isolated small := by decide +kernel
theorem test_occupancy :
    inService small 0 = true ∧ ((replyOccupancy 0 (quietStatus 1000) small).cell 0 3).occupancy = 255 ∧
      inService small 2 = false ∧ replyOccupancy 2 (quietStatus 0) small = small := by decide +kernel

/-- `small` with the overdrive count of Z0's remote. -/
def driven (n : Nat) : State := small.modRemote 0 fun r => { r with overdrive := n }
theorem test_overdrive :
    overdriveMargin 1000 = 1133 ∧ overdriveMargin 500 = 570 ∧ inService small 0 = true ∧
      ((replyOverdrive 0 { quietStatus 1000 with output := 1133 } (driven 2)).remote 0).overdrive = 0 ∧
      ((replyOverdrive 0 { quietStatus 1000 with output := 1134 } (driven 1)).remote 0).overdrive = 2 ∧
      ((replyOverdrive 0 { quietStatus 1000 with output := 1134 } (driven 2)).remote 0).state = .isolated ∧
      ((replyOverdrive 0 { quietStatus 1000 with output := 1134 } (driven 3)).remote 0).state = .alive ∧
      replyOverdrive 0 { quietStatus 999 with output := 1134 } (driven 2) = driven 2 ∧ inService small 2 = false := by
  decide +kernel
theorem test_escalation :
    (heated.remote 0).state ≠ .isolated ∧ ((replyEscalation 0 heated).remote 0).cause = some (.escalation .heat) ∧
      ((replyEscalation 0 heated).log.getLast?.map Entry.kind) = some .autoIsolated ∧
      ((replyEscalation 0 { heated with escalation := #v[121, 0, 0, 0] }).remote 0).state = .degraded ∧
      ((replyEscalation 0 { heated with escalation := #v[0, 0, 0, 0] }).remote 0).state = .degraded ∧
      replyEscalation 0 (withRemote 0 .isolated heated) = withRemote 0 .isolated heated := by decide +kernel
/-- A STATUS with every alarm flag set. -/
def alarmed : Status := { quietStatus 1000 with flags := 0x0F }
theorem test_alarm_onset :
    (alarmAt small 0 .uplinkHot).active = false ∧ alarmed.flags.getLsbD 3 = true ∧
      (alarmAt (replyAlarm 0 alarmed .uplinkHot small) 0 .uplinkHot).onset = 1 ∧
      (alarmAt (replyAlarm 0 alarmed .uplinkHot (replyAlarm 0 alarmed .uplinkHot small)) 0 .uplinkHot).active = true ∧
      (alarmAt (replyAlarm 0 (quietStatus 0) .uplinkHot (replyAlarm 0 alarmed .uplinkHot small)) 0 .uplinkHot).onset = 0 := by
  decide +kernel
theorem test_alarm_clearing :
    (alarmAt heated 0 .heat).active = true ∧ (quietStatus 0).flags.getLsbD 0 = false ∧
      (alarmAt (replyAlarm 0 (quietStatus 0) .heat heated) 0 .heat).clearing = 1 ∧
      (alarmAt (replyAlarm 0 (quietStatus 0) .heat (replyAlarm 0 (quietStatus 0) .heat heated)) 0 .heat) =
        AlarmRec.clear ∧
      (alarmAt (replyAlarm 0 alarmed .heat (replyAlarm 0 (quietStatus 0) .heat heated)) 0 .heat).clearing = 0 := by
  decide +kernel
theorem test_echo :
    (small.zone 0).binding = some ⟨0, 0⟩ ∧ replyEcho 0 (quietStatus 1000) small = small ∧
      ((replyEcho 0 (quietStatus 999) small).link 0).queue = [.set 0 1000 false] ∧
      ((replyEcho 0 { quietStatus 1000 with mute := 2 } small).link 0).queue = [.set 0 1000 false] ∧
      ((replyEcho 0 (quietStatus 999) (withQueue [.set 0 9 true] .nothing small)).link 0).queue = [.set 0 9 true] ∧
      replyEcho 2 (quietStatus 999) small = small := by decide +kernel

/-- `small` with the remotes of the zones given LOST in this round. -/
def lostNow (zs : List Zone) : State :=
  zs.foldl (fun s z => s.modRemote z fun r => { r with state := .lost, lostThisRound := true }) small
/-- The entries a round end of F0 appends. -/
def endEntries (s : State) (results : List (Pos × Bool)) : List Entry := (roundEnd 0 results s).log.drop 6
theorem test_bindings_at_a_round_end : BindingsDistinct (lostNow [1, 2]) ∧ BindingsDistinct (lostNow [0, 1, 2]) :=
  ⟨test_small_bindings, test_small_bindings⟩
theorem test_round_end_without_losses : endEntries small [] = [] := by decide +kernel
theorem test_port_down :
    endEntries (lostNow [0, 1, 2]) [] =
      [{ kind := .portDown, time := 0, vis := .all, port := some 0, count := some 3 }] := by decide +kernel
theorem test_chain_break :
    endEntries (lostNow [1, 2]) [(0, true), (1, false), (2, false)] =
      [{ kind := .chainBreak, time := 0, vis := .all, port := some 0, pos := some 1, count := some 2 }] := by decide +kernel
theorem test_remotes_lost :
    (endEntries (lostNow [1, 2]) [(0, false), (1, false), (2, false)]).map Entry.zone = [some 1, some 2] ∧
      (endEntries (lostNow [0]) [(0, false), (1, true), (2, true)]).map Entry.zone = [some 0] ∧
      (endEntries (withRemote 1 .isolated (lostNow [1])) []).map Entry.kind = [.remoteLost] := by decide +kernel
theorem test_round_end_marks :
    ((roundEnd 0 [(0, true), (1, false), (2, false)] (lostNow [1, 2])).remote 2).behindBreak = true ∧
      ((roundEnd 0 [(0, true), (1, false), (2, false)] (lostNow [1, 2])).remote 2).lostThisRound = false := by decide +kernel
theorem test_isolate_remote :
    Ready small .venue ∧ (small.remote 0).state = .alive ∧ (small.remote 47).state = .unbound ∧
      ((after (.isolateRemote .venue (Burst.whole [0])) small).remote 0).cause = some .venue ∧
      ((after (.isolateRemote .venue (Burst.whole [0])) small).link 0).queue = [.set 0 0 true] ∧
      ((after (.isolateRemote .venue (Burst.whole [47])) small).port .venue).result = .state ∧
      ((after (.isolateRemote .venue (Burst.whole [48])) small).port .venue).result = .range := by unfold Ready; decide +kernel
theorem test_restore_remote :
    ((after (.restoreRemote .venue (Burst.whole [0])) (withRemote 0 .isolated small)).remote 0).state = .searching ∧
      ((after (.restoreRemote .venue (Burst.whole [0])) small).port .venue).result = .state ∧
      ((after (.restoreRemote .venue (Burst.whole [48])) small).port .venue).result = .range := by decide +kernel

/-! ### The Fault Log -/

/-- An entry of the visibility given. -/
def entry (v : Visibility) : Entry := { kind := .remoteBack, time := 0, vis := v }
/-- `small` with a full log that begins with the entries given, T0's cursor at the oldest and the venue's in the middle. -/
def fullLog (first : List Entry) : State :=
  { small with
    log := (first ++ List.replicate 64 (entry .venue)).take 64
    venueReader := ⟨60, 0⟩
    tenantReaders := #v[some ⟨0, 254⟩, some ⟨64, 0⟩, none, none] }
theorem test_append_to_a_full_log :
    (fullLog []).log.length = 64 ∧ (appendLog (entry .all) (fullLog [])).log.length = 64 ∧
      (appendLog (entry .all) (fullLog [entry .all])).reader (.tenant 0) = some ⟨0, 255⟩ ∧
      (appendLog (entry .all) (fullLog [entry .venue])).reader (.tenant 0) = some ⟨0, 254⟩ ∧
      (appendLog (entry .all) (fullLog [entry (.tenant 1)])).reader (.tenant 0) = some ⟨0, 254⟩ ∧
      (appendLog (entry .all) (fullLog [])).reader .venue = some ⟨59, 0⟩ ∧
      (appendLog (entry .all) (fullLog [])).reader (.tenant 1) = some ⟨63, 0⟩ ∧
      ((appendLog (entry .all) (fullLog [])).port (.tenant 1)).log = true := by decide +kernel
theorem test_append_to_a_log_with_room :
    small.log.length < 64 ∧ (appendLog (entry (.tenant 0)) small).reader (.tenant 1) = some ⟨6, 0⟩ ∧
      ((appendLog (entry (.tenant 0)) small).port (.tenant 0)).log = true ∧
      ((appendLog (entry (.tenant 0)) small).port (.tenant 1)).log = false ∧ small.reader (.tenant 2) = none := by
  decide +kernel
theorem test_seconds :
    (after .oneSecondTimerExpiry { small with seconds := 0xFFFFFFFF }).seconds = 0 ∧
      (after .oneSecondTimerExpiry { small with seconds := 0xFFFFFFFE }).seconds = 0xFFFFFFFF := by decide +kernel

/-! ### The Limit Store, resets and start-up -/

/-- Eight records: the first with ceiling 16383 and the binding octet given, the others SERVICE with no binding. -/
def records (b : Byte) : Vector Byte 32 :=
  #v[0x3F, 0xFF, 0, b, 0, 0, 3, 0xFF, 0, 0, 3, 0xFF, 0, 0, 3, 0xFF,
    0, 0, 3, 0xFF, 0, 0, 3, 0xFF, 0, 0, 3, 0xFF, 0, 0, 3, 0xFF]
/-- `small` with page 5 LOCKED. -/
def lockedStore : State :=
  { small with pages := tset small.pages 5 (sealPage (lockedOctets (writtenOctets (records 0xFF)))) }
theorem test_records :
    recordsAcceptable small 5 (records 0xB4).toList = true ∧ recordsAcceptable small 5 (records 0xFF).toList = true ∧
      recordsAcceptable small 5 (records 0xC1).toList = false ∧ recordsAcceptable small 5 (records 0xB0).toList = false ∧
      recordsAcceptable small 5 (records 0xB5).toList = false ∧ recordsAcceptable small 5 (records 0x01).toList = false ∧
      recordsAcceptable small 0 (records 0x01).toList = true ∧
      recordsAcceptable small 5 (tset (records 0xFF) 0 0x40).toList = false ∧
      recordsAcceptable small 5 (tset (records 0xFF) 2 4).toList = false ∧
      recordsAcceptable small 5 (tset (records 0xB4) 7 0xB4).toList = false := by decide +kernel
/-- `crowded` with one of its bounds. A definition that holds a proof is elaborated before the tests that follow it. -/
def boundedCrowded : { s : State // MoveQueueBounded s } := ⟨crowded, by unfold MoveQueueBounded; decide +kernel⟩
theorem test_write_store_page :
    Ready small .venue ∧ small.storeOp = none ∧
      (after (.writeStorePage .venue (Burst.whole (5 :: (records 0xB4).toList))) small).storeOp =
        some (.write 5 (records 0xB4)) ∧
      ((after (.writeStorePage .venue (Burst.whole (6 :: (records 0xB4).toList))) small).port .venue).result = .range ∧
      ((after (.writeStorePage .venue (Burst.whole (5 :: (records 0x01).toList))) small).port .venue).result = .range ∧
      ((after (.writeStorePage .venue (Burst.whole (5 :: (records 0xFF).toList))) lockedStore).port .venue).result =
        .rights ∧
      ((after (.writeStorePage .venue (Burst.whole (5 :: (records 0xFF).toList)))
        { small with storeOp := some (.lock 0) }).port .venue).result = .busy := by unfold Ready; decide +kernel
theorem test_lock_store_page :
    let s := { small with pages := tset small.pages 5 (sealPage (writtenOctets (records 0xFF))) }
    pageValid (tget s.pages 5) = true ∧ pageLocked (tget s.pages 5) = false ∧
      (after (.lockStorePage .venue (Burst.whole [5])) s).storeOp = some (.lock 5) ∧
      ((after (.lockStorePage .venue (Burst.whole [4])) s).port .venue).result = .state ∧
      ((after (.lockStorePage .venue (Burst.whole [5])) lockedStore).port .venue).result = .rights ∧
      ((after (.lockStorePage .venue (Burst.whole [6])) s).port .venue).result = .range := by decide +kernel
theorem test_write_completion :
    let s := { small with storeOp := some (.write 0 (records 0xB4)) }
    s.starting = false ∧ (recordsOf (records 0xB4).toList).isSome = true ∧
      ((after .storeWriteCompletion s).zone 0).binding = some ⟨11, 3⟩ ∧
      ((after .storeWriteCompletion s).zone 0).live = 1000 ∧ ((after .storeWriteCompletion s).zone 1).live = 0 ∧
      ((after .storeWriteCompletion s).remote 0).state = .searching ∧
      ((after .storeWriteCompletion s).remote 1).state = .unbound ∧
      pageValid (tget (after .storeWriteCompletion s).pages 0) = true ∧
      ((after .storeWriteCompletion s).port .venue).storeDone = true := by decide +kernel
theorem test_completions_without_their_operation :
    let s := { inStartUp with storeOp := some (.write 0 (records 0xB4)) }
    s.starting = true ∧ (after .storeWriteCompletion s).zones = s.zones ∧ after .storeLockCompletion s = s ∧
      after .storeWriteCompletion small = small := by decide +kernel
theorem test_lock_completion :
    let s := { small with storeOp := some (.lock 5), pages := tset small.pages 5 (sealPage (writtenOctets (records 0xFF))) }
    pageLocked (tget (after .storeLockCompletion s).pages 5) = true ∧ (after .storeLockCompletion s).storeOp = none := by
  decide +kernel
theorem test_soft_reset :
    Ready small .venue ∧ (after (.softReset .venue (Burst.whole [])) small).starting = true ∧
      (after (.softReset .venue (Burst.whole [])) small).log = small.log ∧
      (after (.softReset .venue (Burst.whole [])) small).rampTimer.running = false := by unfold Ready; decide +kernel
theorem test_soft_reset_ends_a_read :
    let s := withCmd .venue (.reading (.reply [1, 2, 3]) (some [1, 2, 3]) 1) small
    let q := (after (.softReset .venue (Burst.whole [9])) s).port .venue
    firstOut .venue s = 2 ∧ q.dataOut = [2, 0] ∧ q.cmd = .idle ∧ q.lastCode = some 0x4F := by decide +kernel
theorem test_hardware_reset :
    small.storeOp = none ∧ (after .hardwareReset small).log = [] ∧ (after .hardwareReset small).starting = true ∧
      (after .hardwareReset { small with storeOp := some (.lock 5) }).storeOp = none ∧
      (after .hardwareReset { small with storeOp := some (.lock 5) }).freeCount = 1 := by decide +kernel
/-- The part in start-up with pages 0 and 1 valid and a binding that both hold. -/
def twice : State :=
  let page := sealPage (writtenOctets (records 0xB4))
  { State.reset with starting := true, log := [], pages := tset (tset State.reset.pages 0 page) 1 page }
theorem test_start_up :
    twice.starting = true ∧ twice.storeOp = none ∧ ((after .startUp twice).zone 0).binding = some ⟨11, 3⟩ ∧
      ((after .startUp twice).zone 0).live = 16383 ∧ ((after .startUp twice).remote 0).state = .searching ∧
      (after .startUp twice).zone 8 = ⟨.service, 0, none, 0, false, 0⟩ ∧
      (after .startUp twice).log.map Entry.page = [some 1, some 2, some 3, some 4, some 5] ∧
      ((after .startUp twice).port .venue).log = true := by decide +kernel
/-- The part in start-up with every page valid and no binding, and the venue's lost count as given. -/
def sound (lost : Nat) : State :=
  { twice with
    pages := Vector.replicate 6 (sealPage (writtenOctets (records 0xFF)))
    venueReader := ⟨0, lost⟩ }
theorem test_start_up_log_reasons :
    (sound 0).starting = true ∧ (sound 0).storeOp = none ∧ ((after .startUp (sound 0)).port .venue).log = false ∧
      ((after .startUp (sound 1)).port .venue).log = true ∧ ((after .startUp twice).port (.tenant 0)).log = false := by
  decide +kernel
theorem test_start_up_waits :
    small.starting = false ∧ after .startUp small = small ∧
      after .startUp { twice with storeOp := some (.lock 0) } = { twice with storeOp := some (.lock 0) } := by decide +kernel
theorem test_reset_is_the_end_of_start_up :
    after .startUp (after .hardwareReset State.reset) = State.reset := by decide +kernel

end Sys2Proof.Tests
end

namespace Sys2Proof.Machine

/-! ### What a step can do -/

/-- What a command of the queue makes of the state: one case for each function that a row of the table calls. -/
inductive Event : State → State → Prop
  | burst (c : Command) (p : Port) (b : Burst) (s : State) : Event s (clockBurst c p b s)
  | element (p : Port) (c : Clocked) (s : State) : Event s (clockElement p c s)
  | code (p : Port) (b : Byte) (c : Clocked) (s : State) : Event s (clockCode p b c s)
  | hardwareReset (s : State) : Event s (hardwareReset s)
  | startUp (s : State) : Event s (startUp s)
  | selectRise (p : Port) (s : State) : Event s (raiseSelect p s)
  | selectFall (p : Port) (s : State) : Event s (lowerSelect p s)
  | rampTimer (s : State) : Event s (rampExpiry s)
  | censusTimer (s : State) : Event s (censusExpiry s)
  | pollTimer (s : State) : Event s (pollExpiry s)
  | pollSent (f : FPort) (s : State) : Event s (pollEnd f s)
  | chars (f : FPort) (cs : List LineChar) (s : State) : Event s (takeChars f cs s)
  | replyTimer (f : FPort) (s : State) : Event s (replyExpiry f s)
  | frameSent (f : FPort) (s : State) : Event s (frameEnd f s)
  | lockLost (f : FPort) (s : State) : Event s (lockLost f s)
  | lockBack (f : FPort) (s : State) : Event s (lockBack f s)
  | carrier (t : Tenant) (k : Sector) (lock : Bool) (s : State) : Event s (carrierEvent t k lock s)
  | written (s : State) : Event s (writeCompletion s)
  | locked (s : State) : Event s (lockCompletion s)
  | second (s : State) : Event s (secondExpiry s)

/-- Every row of the table is one of the events. -/
theorem exec_event (i : Instr) (s : State) : ∃ t, exec i s = .next t ∧ Event s t := by
  cases i <;> exact ⟨_, rfl, by constructor⟩

/-- A step idles, or it takes the front of the queue and runs one event on the state with the queue's rest. -/
theorem step_event {s t : State} (h : step s = .next t) :
    t = s ∨ ∃ rest, Event { s with pending := rest } t := by
  unfold step at h
  split at h
  · exact .inl (Host.Outcome.next.inj h).symm
  · next c rest _ =>
    obtain ⟨t', e, ht⟩ := exec_event c { s with pending := rest }
    rw [e] at h
    exact .inr ⟨rest, Host.Outcome.next.inj h ▸ ht⟩

end Sys2Proof.Machine

namespace Sys2Proof.Machine

/-! ### The changes that every event is made of -/

/-- A port has no command in progress but, perhaps, a fixed-length reply. -/
def Resting (c : Progress) : Prop := c = .idle ∨ ∃ os held n, c = .reading (.reply os) held n

/-- At most what no law of the plan and no law of the records reads differs: start-up, the lines from outside, the
timers, the settings of the venue, the seconds counter, the store pages and the queue of commands. -/
def SettingsAlone (s t : State) : Prop :=
  t = { s with
    starting := t.starting
    carrierLock := t.carrierLock
    venueMode := t.venueMode
    standbyDark := t.standbyDark
    rampTimer := t.rampTimer
    rampTick := t.rampTick
    rampStep := t.rampStep
    weights := t.weights
    censusInterval := t.censusInterval
    censusTimer := t.censusTimer
    wakeThreshold := t.wakeThreshold
    wakeDebounce := t.wakeDebounce
    wakeCount := t.wakeCount
    pollInterval := t.pollInterval
    pollTimer := t.pollTimer
    lossThreshold := t.lossThreshold
    recoveryCount := t.recoveryCount
    alarmDebounce := t.alarmDebounce
    derate := t.derate
    escalation := t.escalation
    seconds := t.seconds
    pages := t.pages
    freeCount := t.freeCount
    pending := t.pending }

/-- R89: the ranges of the spreading settings. -/
def SpreadingBounded (v : Spreading) : Prop :=
  v.low < v.high ∧ v.high ≤ 12240 ∧ 1 ≤ v.debounce ∧ v.debounce ≤ 15 ∧ 4 ≤ v.longCount

/-- R9: the ranges of the two limits of a zone. -/
def ZoneLimits (r : ZoneRec) : Prop := r.live ≤ r.ceiling ∧ r.ceiling ≤ 16383

/-- The moves and homes that a ramp timer expiry leaves, before its passes. -/
def rampMoves (s : State) : State :=
  let s1 := { s with moves := s.moves.map (advanceMove s.rampStep), rampTimer := ⟨true, s.rampTick⟩ }
  (s1.moves.filter moveDone).foldl (fun s m => completeMove m s) s1

/-- A property of the state that each of the changes of which the events are made keeps. `Q` is what the property tells of
the record of a tenant whose port has a command in progress; it holds of every ACTIVE tenant, and the changes that such a
command makes may rely on it. -/
structure Kept (P : State → Prop) (Q : TenantRec → Prop) : Prop where
  active : ∀ r : TenantRec, r.state = .active → Q r
  busy : ∀ {s t}, P s → ¬ Resting (s.port (.tenant t)).cmd → Q (s.tenant t)
  settings : ∀ {s t}, SettingsAlone s t → (SettingsBounded s → SettingsBounded t) → P s → P t
  port : ∀ {s} (p f), (∀ q : PortRec, (f q).cmd = q.cmd ∧ (f q).log = q.log) → P s → P (s.modPort p f)
  cmd : ∀ {s} (p c), (∀ t, p = .tenant t → Resting c ∨ Q (s.tenant t)) → P s → P (setCmd p c s)
  append : ∀ {s} (e), P s → P (appendLog e s)
  read : ∀ {s} (p r), s.reader p = some r → P s → P (readLog p r s).2
  results : ∀ {s} (z), P s → P (passResults z s)
  queue : ∀ {s} (z), P s → P (queueSet z s)
  admission : ∀ {s}, P s → P (admitNext s)
  slot : ∀ {s m}, m ∈ s.moves → m.state = .waiting → P s → P (startRamping m s)
  target : ∀ {s t} (z d src), Q (s.tenant t) → P s → P (setTarget z t d src s)
  cells : ∀ {s t}, t = { s with cells := t.cells } →
    (∀ z u, (t.cell z u).home = (s.cell z u).home ∧ (t.cell z u).target = (s.cell z u).target ∧
      ((t.cell z u).occupancy = (s.cell z u).occupancy ∨ inService s z = true)) → P s → P t
  tenant : ∀ {s} (t f), (∀ r : TenantRec, (f r).state = r.state ∧ (f r).quota = r.quota ∧
      (SpreadingBounded r.spreading → SpreadingBounded (f r).spreading)) → P s → P (s.modTenant t f)
  zone : ∀ {s} (z f), (∀ r : ZoneRec, (f r).binding = r.binding ∧ ((f r).pinned = true → r.pinned = true) ∧
      (ZoneLimits r → ZoneLimits (f r))) → P s → P (s.modZone z f)
  pin : ∀ {s} (z), P s → P (pinRecord z s)
  link : ∀ {s} (f g), (g (s.link f)).queue.length ≤ (s.link f).queue.length → P s → P (s.modLink f g)
  remote : ∀ {s} (z g), (inService (s.modRemote z g) z = false → inService s z = false) → P s → P (s.modRemote z g)
  leave : ∀ {s} (z g), inService (s.modRemote z g) z = false → P s → P (outage z (s.modRemote z g))
  ramp : ∀ {s}, P s → P (rampMoves s)
  newTenant : ∀ {s} (t quota count), admitted s t = false → quota + quotaSum (fun _ => true) s ≤ 32 → P s →
    P (admitRecord t quota count s)
  quota : ∀ {s} (t share), share + quotaSum (fun u => u != t) s ≤ 32 → P s →
    P (s.modTenant t fun r => { r with quota := share })
  suspension : ∀ {s} (t), isActive s t = true → P s → P (endFromOutside (.tenant t) (suspendRecord t s))
  resumption : ∀ {s} (t), (s.tenant t).state = .suspended → P s → P (s.modTenant t fun r => { r with state := .active })
  retirement : ∀ {s} (t), P s → P (retirePort t (retireRecord t s))
  storeWrite : ∀ {s} (p records), recordsAcceptable s p records.toList = true → P s →
    P { s with storeOp := some (.write p records) }
  storeLock : ∀ {s} (p), P s → P { s with storeOp := some (.lock p) }
  storeEnd : ∀ {s}, P s → P { s with storeOp := none }
  copies : ∀ {s} (p records), s.storeOp = some (.write p records) → P s →
    P (copyRecords p ((recordsOf records.toList).getD []) { s with storeOp := none })
  resetBegins : ∀ {s}, P s → P (beginStartUp s)
  hardware : ∀ {s}, P s → P (hardwareReset s)
  restart : ∀ {s}, P s → P (startUp s)

end Sys2Proof.Machine

namespace Sys2Proof.Machine

theorem foldl_kept {α : Type} {P : State → Prop} {f : State → α → State} (h : ∀ s a, P s → P (f s a)) (l : List α)
    {s : State} (hs : P s) : P (l.foldl f s) := by
  induction l generalizing s with
  | nil => exact hs
  | cons a rest ih => exact ih (h s a hs)

/-- The port's record and all others: a change of one port commutes with the passes of one event. -/
theorem passes_modPort (sel : Zone → Bool) (s : State) (p : Port) (g : PortRec → PortRec) :
    passes sel (s.modPort p g) = (passes sel s).modPort p g := by
  have order : passOrder (s.modPort p g) = passOrder s := rfl
  unfold passes
  rw [order]
  generalize (passOrder s).filter sel = l
  induction l generalizing s with
  | nil => rfl
  | cons z rest ih => rw [List.foldl_cons, List.foldl_cons, pass_modPort, ih _ rfl]

theorem passes_port (sel : Zone → Bool) (s : State) (p : Port) : (passes sel s).port p = s.port p := by
  rw [State.port, (passes_passed sel s).ports, State.port]

theorem endFromOutside_passAll (p : Port) (s : State) : endFromOutside p (passAll s) = passAll (endFromOutside p s) := by
  unfold endFromOutside passAll
  rw [passes_port]
  split
  · rfl
  · exact (passes_modPort _ _ _ _).symm

theorem retirePort_passAll (t : Tenant) (s : State) : retirePort t (passAll s) = passAll (retirePort t s) := by
  unfold retirePort
  rw [endFromOutside_passAll]
  exact (passes_modPort _ _ _ _).symm

/-- The state of a remote alone tells whether its zone is in service. -/
theorem inService_modRemote {s : State} {z : Zone} {g : RemoteRec → RemoteRec}
    (h : (g (s.remote z)).state = (s.remote z).state) : inService (s.modRemote z g) z = inService s z := by
  simp only [inService, State.remote_modRemote_same, h]

theorem setTarget_tenants (z : Zone) (t : Tenant) (d : Dest) (src : Origin) (s : State) :
    (setTarget z t d src s).tenants = s.tenants := by
  unfold setTarget
  split
  · rfl
  · split
    · split
      · rfl
      · exact (pass_passed z _).tenants
    · split
      · rfl
      · split
        · simp only [retargetMove]
          split <;> rfl
        · rfl

section

variable {P : State → Prop} {Q : TenantRec → Prop} (h : Kept P Q) {s : State}
include h

/-! ### Ports, passes and remotes -/

theorem Kept.on_setResult (p : Port) (r : Result) (hs : P s) : P (setResult p r s) := h.port _ _ (fun _ => ⟨rfl, rfl⟩) hs

theorem Kept.on_advancePointer (p : Port) (hs : P s) : P (advancePointer p s) := h.port _ _ (fun _ => ⟨rfl, rfl⟩) hs

theorem Kept.on_gainMovesIdle (t : Tenant) (hs : P s) : P (gainMovesIdle t s) := h.port _ _ (fun _ => ⟨rfl, rfl⟩) hs

theorem Kept.on_gainStoreDone (hs : P s) : P (gainStoreDone s) := h.port _ _ (fun _ => ⟨rfl, rfl⟩) hs

theorem Kept.on_setCodeResult (p : Port) (b : Byte) (r : Result) (hs : P s) : P (setCodeResult p b r s) :=
  h.port _ _ (fun _ => ⟨rfl, rfl⟩) hs

theorem Kept.on_pass (z : Zone) (hs : P s) : P (pass z s) := by
  rw [pass_eq]
  split
  · exact h.queue z (h.results z hs)
  · exact h.results z hs

theorem Kept.on_passes (sel : Zone → Bool) (hs : P s) : P (passes sel s) := foldl_kept (fun _ z => h.on_pass z) _ hs

theorem Kept.on_passAll (hs : P s) : P (passAll s) := h.on_passes _ hs

/-- A change of a remote's record that leaves its state. -/
theorem Kept.on_remoteField {z : Zone} {g : RemoteRec → RemoteRec} (hg : ∀ r, (g r).state = r.state) (hs : P s) :
    P (s.modRemote z g) := h.remote z g (fun e => by rwa [inService_modRemote (hg _)] at e) hs

theorem Kept.on_linkField {f : FPort} {g : LinkRec → LinkRec} (hg : ∀ l, (g l).queue = l.queue) (hs : P s) :
    P (s.modLink f g) := h.link f g (le_of_eq (congrArg _ (hg _))) hs

theorem Kept.on_startQueued (f : FPort) (hs : P s) : P (startQueued f s) := by
  unfold startQueued
  dsimp only
  split
  · exact h.on_linkField (fun _ => rfl) hs
  · exact hs

/-! ### The close of an event -/

theorem Kept.on_admitPending (n : Nat) (hs : P s) : P (admitPending n s) := by
  induction n generalizing s with
  | zero => exact hs
  | succ n ih =>
    unfold admitPending
    split
    · exact hs
    · exact ih (h.admission hs)

theorem Kept.on_grantSlots (n : Nat) (hs : P s) : P (grantSlots n s) := by
  induction n generalizing s with
  | zero => exact hs
  | succ n ih =>
    unfold grantSlots
    split
    · split
      · next m hm =>
        exact ih (h.slot (List.mem_of_find?_eq_some hm) (by simpa using List.find?_some hm) hs)
      · exact hs
    · exact hs

theorem Kept.on_grantAndPass (hs : P s) : P (grantAndPass s) := by
  unfold grantAndPass
  exact h.on_passes _ (h.on_grantSlots _ hs)

theorem Kept.on_settle (hs : P s) : P (settle s) := by
  unfold settle
  exact h.on_grantAndPass (h.on_admitPending _ hs)

theorem Kept.on_raiseIdle (before : State) (hs : P s) : P (raiseIdle before s) := by
  refine foldl_kept (fun a t ha => ?_) _ hs
  split
  · exact h.on_gainMovesIdle t ha
  · exact ha

theorem Kept.on_finish (before : State) (hs : P s) : P (finish before s) := by
  refine h.on_raiseIdle before ?_
  split
  · exact h.on_settle hs
  · exact hs

theorem Kept.on_rampExpiry (hs : P s) : P (rampExpiry s) := by
  unfold rampExpiry
  split
  · exact hs
  · exact h.on_finish _ (h.on_passes _ (h.ramp hs))

/-! ### The census -/

theorem Kept.on_modCell (z : Zone) (t : Tenant) {f : Cell → Cell}
    (hf : ∀ c, (f c).home = c.home ∧ (f c).target = c.target ∧ (f c).occupancy = c.occupancy) (hs : P s) :
    P (s.modCell z t f) := by
  refine h.cells rfl (fun y u => ?_) hs
  rw [State.cell_modCell]
  split
  · exact ⟨(hf _).1, (hf _).2.1, .inl (hf _).2.2⟩
  · exact ⟨rfl, rfl, .inl rfl⟩

theorem Kept.on_propose {t : Tenant} (k : Sector) (z : Zone) (a : Sector) (hq : Q (s.tenant t)) (hs : P s) :
    P (propose t k z a s) :=
  h.tenant _ _ (fun _ => ⟨rfl, rfl, id⟩) (h.on_modCell z t (fun _ => ⟨rfl, rfl, rfl⟩) (h.target z _ _ hq hs))

omit h in
theorem propose_tenant_state (t : Tenant) (k : Sector) (z : Zone) (a : Sector) (s : State) :
    ((propose t k z a s).tenant t).state = (s.tenant t).state := by
  have e : (setTarget z t (.sector a) .balancer s).tenant t = s.tenant t := by
    simp only [State.tenant, setTarget_tenants]
  simp [propose, e]

/-! ### The census (chapter 5) -/

omit h in
theorem balanceSector_tenant (t : Tenant) (x : State × Vector Nat 6) (k : Sector) :
    ((balanceSector t x k).1.tenant t).state = (x.1.tenant t).state := by
  unfold balanceSector
  dsimp only
  split
  · split
    · exact propose_tenant_state t k _ _ x.1
    · rfl
  · rfl

theorem Kept.on_balance {t : Tenant} (ha : isActive s t = true) (hs : P s) : P (balance t s) := by
  have sector : ∀ (l : List Sector) (x : State × Vector Nat 6), isActive x.1 t = true → P x.1 →
      P (l.foldl (balanceSector t) x).1 := by
    intro l
    induction l with
    | nil => exact fun _ _ hx => hx
    | cons k rest ih =>
      intro x hx hp
      refine ih _ ?_ ?_
      · rw [isActive, balanceSector_tenant]
        exact hx
      · unfold balanceSector
        dsimp only
        split
        · split
          · exact h.on_propose k _ _ (h.active _ (by simpa [isActive] using hx)) hp
          · exact hp
        · exact hp
  unfold balance
  split
  · exact sector _ _ ha hs
  · exact hs

theorem Kept.on_censusTenant (t : Tenant) (hs : P s) : P (censusTenant t s) := by
  unfold censusTenant
  split
  · next ha =>
    refine h.on_balance ?_ (h.tenant _ _ (fun _ => ⟨rfl, rfl, id⟩) hs)
    simpa [isActive, measureTenant] using ha
  · exact hs

theorem Kept.on_countHoldOffs (hs : P s) : P (countHoldOffs s) := by
  refine h.cells rfl (fun z u => ?_) hs
  have e : (countHoldOffs s).cell z u = if admitted s u then countDown (s.cell z u) else s.cell z u := by
    simp [countHoldOffs, State.cell]
  rw [e]
  split
  · exact ⟨rfl, rfl, .inl rfl⟩
  · exact ⟨rfl, rfl, .inl rfl⟩

theorem Kept.on_setMode (m : VenueMode) (hs : P s) : P (setMode m s) :=
  h.on_passes _ (h.settings (t := { s with venueMode := m, wakeCount := 0 }) rfl id hs)

theorem Kept.on_wakeStep (hs : P s) : P (wakeStep s) := by
  unfold wakeStep
  split
  · split
    · exact h.on_setMode _ hs
    · exact h.settings (t := { s with wakeCount := nextWakeCount s }) rfl id hs
  · exact hs

theorem Kept.on_censusExpiry (hs : P s) : P (censusExpiry s) := by
  unfold censusExpiry
  split
  · exact hs
  · have begun : P { s with censusTimer := ⟨true, s.censusInterval⟩ } := h.settings rfl id hs
    have measured := foldl_kept (fun _ t => h.on_censusTenant t) allTenants begun
    have woken := h.on_wakeStep (h.on_countHoldOffs measured)
    exact h.on_finish _ (foldl_kept (fun _ e => h.append e) _ woken)

/-! ### Supervision (chapter 7) -/

theorem Kept.on_enterIsolated (z : Zone) (cause : IsolationCause) (hs : P s) : P (enterIsolated z cause s) := by
  have out : inService (s.modRemote z (isolatedRecord cause)) z = false := by simp [inService, isolatedRecord]
  refine h.queue z (h.results z ?_)
  cases hw : inService s z with
  | true => exact h.leave z _ out hs
  | false => exact h.remote z _ (fun _ => hw) hs

theorem Kept.on_enterLost (z : Zone) (hs : P s) : P (enterLost z s) :=
  h.on_pass z (h.leave z _ (by simp [inService, lostRecord]) hs)

theorem Kept.on_handleMiss (z : Zone) (hs : P s) : P (handleMiss z s) := by
  have counted : P (s.modRemote z fun r => { r with goodCount := 0, missCount := min (r.missCount + 1) 15 }) :=
    h.on_remoteField (fun _ => rfl) hs
  unfold handleMiss
  dsimp only
  split
  · exact counted
  · split
    · exact h.append _ (h.on_remoteField (fun _ => rfl) counted)
    · exact counted
  · split
    · exact h.on_enterLost z counted
    · exact counted
  · split
    · exact h.on_enterLost z counted
    · exact counted
  · exact counted
  · exact h.on_remoteField (fun _ => rfl) counted

theorem Kept.on_replyOverdrive (z : Zone) (st : Status) (hs : P s) : P (replyOverdrive z st s) := by
  unfold replyOverdrive
  dsimp only
  split
  · split
    · exact h.append _ (h.on_enterIsolated z _ (h.on_remoteField (fun _ => rfl) hs))
    · exact h.on_remoteField (fun _ => rfl) hs
  · exact hs

theorem Kept.on_replyAlarm (z : Zone) (st : Status) (c : AlarmClass) (hs : P s) : P (replyAlarm z st c s) := by
  have alarm : ∀ f, P (modAlarm z c f s) := fun f => h.on_remoteField (fun _ => rfl) hs
  unfold replyAlarm
  dsimp only
  split
  · split
    · exact alarm _
    · split
      · exact h.append _ (h.on_pass z (alarm _))
      · exact alarm _
  · split
    · exact alarm _
    · split
      · exact h.append _ (h.on_pass z (alarm _))
      · exact alarm _

theorem Kept.on_replyEscalation (z : Zone) (hs : P s) : P (replyEscalation z s) := by
  unfold replyEscalation
  dsimp only
  split
  · exact hs
  · split
    · exact h.append _ (h.on_enterIsolated z _ (h.on_remoteField (fun _ => rfl) hs))
    · exact h.on_remoteField (fun _ => rfl) hs

omit h in
/-- R119: the state that the alarm set gives is a state in service. -/
theorem inService_serviceState {z : Zone} {g : RemoteRec → RemoteRec} (x : State)
    (hg : (g (s.remote z)).state = serviceState x z) : inService (s.modRemote z g) z = true := by
  simp only [inService, State.remote_modRemote_same, hg, serviceState]
  cases anyAlarm x z <;> rfl

theorem Kept.on_enterService (z : Zone) (hs : P s) : P (enterService z s) := by
  have entered : ∀ g : RemoteRec → RemoteRec, (g (s.remote z)).state = serviceState s z →
      P (queueSet z (passResults z (s.modRemote z g))) := fun g hg =>
    h.queue z (h.results z (h.remote z g (fun e => absurd ((inService_serviceState s hg).symm.trans e) (by simp)) hs))
  unfold enterService
  dsimp only
  split
  · exact h.append _ (entered _ rfl)
  · exact entered _ rfl

theorem Kept.on_replyService (z : Zone) (hs : P s) : P (replyService z s) := by
  unfold replyService
  split
  · split
    · exact h.on_enterService z hs
    · exact hs
  · split
    · exact h.on_enterService z hs
    · exact hs
  · split
    · exact h.on_pass z (h.remote z _ (by simp [inService]) hs)
    · exact hs
  · split
    · exact hs
    · exact h.on_pass z (h.remote z _ (by simp [inService]) hs)
  · exact hs
  · exact hs

theorem Kept.on_replyOccupancy (z : Zone) (st : Status) (hs : P s) : P (replyOccupancy z st s) := by
  unfold replyOccupancy
  split
  · next hin =>
    refine h.cells rfl (fun y u => ?_) hs
    rw [State.cell_modZoneCells]
    split
    · next e => exact ⟨rfl, rfl, .inr (e ▸ hin)⟩
    · exact ⟨rfl, rfl, .inl rfl⟩
  · exact hs

theorem Kept.on_replyEcho (z : Zone) (st : Status) (hs : P s) : P (replyEcho z st s) := by
  unfold replyEcho
  split
  · split
    · exact h.queue z hs
    · exact hs
  · exact hs

/-- R138: the seven steps of a reply. -/
theorem Kept.on_handleReply (z : Zone) (st : Status) (hs : P s) : P (handleReply z st s) := by
  have counted : P (replyCounts z st s) := h.on_remoteField (fun _ => rfl) hs
  have alarmed := foldl_kept (fun _ c => h.on_replyAlarm z st c) allAlarms (h.on_replyOverdrive z st counted)
  exact h.on_replyEcho z st (h.on_replyOccupancy z st (h.on_replyService z (h.on_replyEscalation z alarmed)))

theorem Kept.on_logLost (f : FPort) (ps : List Pos) (hs : P s) : P (logLost f ps s) := by
  refine foldl_kept (fun a p ha => ?_) ps hs
  split
  · exact h.append _ ha
  · exact ha

theorem Kept.on_markBehind (f : FPort) (ps : List Pos) (hs : P s) : P (markBehind f ps s) := by
  refine foldl_kept (fun a p ha => ?_) ps hs
  split
  · exact h.on_remoteField (fun _ => rfl) ha
  · exact ha

theorem Kept.on_groupEntries (f : FPort) (results : List (Pos × Bool)) (hs : P s) : P (groupEntries f results s) := by
  unfold groupEntries
  dsimp only
  split
  · exact hs
  · split
    · exact h.append _ hs
    · split
      · split
        · exact h.on_markBehind f _ (h.append _ hs)
        · exact h.on_logLost f _ hs
      · exact h.on_logLost f _ hs

theorem Kept.on_roundEnd (f : FPort) (results : List (Pos × Bool)) (hs : P s) : P (roundEnd f results s) := by
  refine foldl_kept (fun a p ha => ?_) _ (h.on_logLost f _ (h.on_groupEntries f results hs))
  split
  · exact h.on_remoteField (fun _ => rfl) ha
  · exact ha

/-! ### The Link Controllers (chapter 6) -/

theorem Kept.on_startTurn (f : FPort) (pos : Pos) (results : List (Pos × Bool)) (k : Nat) (hs : P s) :
    P (startTurn f pos results k s) := by
  refine h.on_linkField (fun l => ?_) hs
  unfold turnLink
  split
  · rfl
  · split <;> rfl

theorem Kept.on_endRound (f : FPort) (results : List (Pos × Bool)) (hs : P s) : P (endRound f results s) :=
  h.on_startQueued f (h.on_linkField (fun _ => rfl) (h.on_roundEnd f results hs))

theorem Kept.on_beginTurn (f : FPort) (pos : Pos) (results : List (Pos × Bool)) (hs : P s) :
    P (beginTurn f pos results s) := by
  unfold beginTurn
  split
  · exact h.on_startTurn f _ _ _ hs
  · exact h.on_endRound f _ hs

theorem Kept.on_afterClose (f : FPort) (pos : Pos) (results : List (Pos × Bool)) (hs : P s) :
    P (afterClose f pos results s) := by
  unfold afterClose
  split
  · exact h.on_startTurn f _ _ _ hs
  · exact h.on_endRound f _ hs

theorem Kept.on_deliver (f : FPort) (pos : Pos) (reply : Option Status) (hs : P s) : P (deliver f pos reply s) := by
  unfold deliver
  split
  · exact hs
  · split
    · exact h.on_handleReply _ _ hs
    · exact h.on_handleMiss _ hs

theorem Kept.on_closeWindow (f : FPort) (reply : Option Status) (hs : P s) : P (closeWindow f reply s) := by
  unfold closeWindow
  split
  · exact h.on_finish _ (h.on_afterClose f _ _ (h.on_deliver f _ reply hs))
  · exact hs

theorem Kept.on_startRound (f : FPort) (hs : P s) : P (startRound f s) := by
  unfold startRound
  split
  · exact hs
  · split
    · exact hs
    · exact h.on_startTurn f _ _ _ hs

theorem Kept.on_pollExpiry (hs : P s) : P (pollExpiry s) := by
  unfold pollExpiry
  split
  · exact hs
  · exact foldl_kept (fun _ f => h.on_startRound f) _
      (h.settings (t := { s with pollTimer := ⟨true, s.pollInterval⟩ }) rfl id hs)

theorem Kept.on_pollEnd (f : FPort) (hs : P s) : P (pollEnd f s) := by
  unfold pollEnd
  split
  · split
    · exact hs
    · exact h.on_linkField (fun _ => rfl) hs
  · exact hs

theorem Kept.on_replyExpiry (f : FPort) (hs : P s) : P (replyExpiry f s) := by
  unfold replyExpiry
  split
  · exact hs
  · exact h.on_closeWindow f none hs

theorem Kept.on_reportFrame (f : FPort) (fr : Frame) (hs : P s) : P (reportFrame f fr s) := by
  cases fr with
  | set pos limit mute =>
    simp only [reportFrame, reportSet]
    split
    · exact h.on_remoteField (fun _ => rfl) hs
    · exact hs
  | chainMute => exact hs

theorem Kept.on_takeOwed (f : FPort) (hs : P s) : P (takeOwed f s) := by
  unfold takeOwed
  split
  · exact h.queue _ hs
  · exact hs

theorem Kept.on_sendNext (f : FPort) (hs : P s) : P (sendNext f s) := by
  unfold sendNext
  split
  · split
    · exact h.on_startTurn f _ _ _ hs
    · exact h.on_beginTurn f _ _ hs
  · exact h.on_startQueued f hs

theorem Kept.on_frameEnd (f : FPort) (hs : P s) : P (frameEnd f s) := by
  unfold frameEnd
  split
  · next fr rest _ hq =>
    split
    · exact hs
    · exact h.on_sendNext f (h.on_takeOwed f (h.on_reportFrame f fr (h.link f _ (by simp [hq]) hs)))
  · exact hs

theorem Kept.on_lockLost (f : FPort) (hs : P s) : P (lockLost f s) := by
  have noted : P (s.modLink f fun l => { l with lockCond := false }) := h.on_linkField (fun _ => rfl) hs
  unfold lockLost
  dsimp only
  split
  · exact noted
  · have dropped := h.on_linkField (f := f)
      (g := fun l => { l with locked := false, rx := .seeking, afterC3 := false, sending := .nothing }) (fun _ => rfl) noted
    unfold roundAtLoss
    split
    · exact h.on_beginTurn f _ _ dropped
    · exact h.on_linkField (fun _ => rfl) dropped
    · exact dropped

theorem Kept.on_lockBack (f : FPort) (hs : P s) : P (lockBack f s) := by
  have noted : P (s.modLink f fun l => { l with lockCond := true }) := h.on_linkField (fun _ => rfl) hs
  unfold lockBack
  dsimp only
  split
  · exact noted
  · exact h.on_startQueued f (h.on_linkField (fun _ => rfl) noted)

theorem Kept.on_frameDone (f : FPort) (os : List Byte) (hs : P s) : P (frameDone f os s) := by
  have seeking : P (s.modLink f fun l => { l with rx := .seeking }) := h.on_linkField (fun _ => rfl) hs
  unfold frameDone
  dsimp only
  split
  · exact h.on_closeWindow f _ seeking
  · exact seeking

theorem Kept.on_takeDataOctet (f : FPort) (b : Byte) (hs : P s) : P (takeDataOctet f b s) := by
  unfold takeDataOctet
  split
  · exact hs
  · split
    · exact h.on_linkField (fun _ => rfl) hs
    · exact h.on_linkField (fun _ => rfl) hs
  · dsimp only
    split
    · exact h.on_frameDone f _ hs
    · exact h.on_linkField (fun _ => rfl) hs

theorem Kept.on_takeChars (f : FPort) (cs : List LineChar) (hs : P s) : P (takeChars f cs s) := by
  refine foldl_kept (fun a c ha => ?_) cs hs
  unfold takeChar
  split
  · exact ha
  · cases c with
    | framing b =>
      dsimp only
      split
      · exact h.on_linkField (fun _ => rfl) ha
      · exact h.on_linkField (fun _ => rfl) ha
    | data b => exact h.on_takeDataOctet f b (h.on_linkField (fun _ => rfl) ha)

end
end Sys2Proof.Machine

namespace Sys2Proof.Machine

section

variable {P : State → Prop} {Q : TenantRec → Prop} (h : Kept P Q) {s : State}
include h

/-! ### The commands of a tenant -/

theorem Kept.on_setWindow (p : Port) (a b : Byte) (hs : P s) : P (setWindow p a b s) := by
  unfold setWindow
  split
  · split
    · exact h.on_setResult p _ hs
    · exact h.on_setResult p _ (h.port _ _ (fun _ => ⟨rfl, rfl⟩) hs)
  · exact h.on_setResult p _ hs

theorem Kept.on_targetElement (t : Tenant) (b : Byte) (hq : Q (s.tenant t)) (hs : P s) : P (targetElement t b s) := by
  refine h.on_advancePointer _ ?_
  split
  · exact h.on_setResult _ _ hs
  · split
    · exact h.on_setResult _ _ hs
    · exact h.on_finish _ (h.target _ _ _ hq hs)

theorem Kept.on_requestMove (t : Tenant) (zone dest : Byte) (hq : Q (s.tenant t)) (hs : P s) :
    P (requestMove t zone dest s) := by
  unfold requestMove
  split
  · split
    · exact h.on_setResult _ _ hs
    · exact h.on_finish _ (h.on_setResult _ _ (h.target _ _ _ hq hs))
  · exact h.on_setResult _ _ hs

theorem Kept.on_cancelMove (t : Tenant) (zone : Byte) (hq : Q (s.tenant t)) (hs : P s) : P (cancelMove t zone s) := by
  unfold cancelMove
  split
  · exact h.on_setResult _ _ hs
  · split
    · exact h.on_setResult _ _ hs
    · exact h.on_finish _ (h.on_setResult _ _ (h.target _ _ _ hq hs))

theorem Kept.on_alternatesElement (t : Tenant) (element : List Byte) (hs : P s) : P (alternatesElement t element s) := by
  refine h.on_advancePointer _ ?_
  split
  · exact h.on_setResult _ _ hs
  · exact h.on_modCell _ t (fun _ => ⟨rfl, rfl, rfl⟩) hs

theorem Kept.on_setLevel (t : Tenant) (sec hi lo : Byte) (hs : P s) : P (setLevel t sec hi lo s) := by
  unfold setLevel
  split
  · exact h.on_setResult _ _ hs
  · next k _ =>
    have stored : P (s.modTenant t fun r => { r with levels := tset r.levels k (clampLevel (be16 hi lo)) }) :=
      h.tenant _ _ (fun _ => ⟨rfl, rfl, id⟩) hs
    refine h.on_setResult _ _ ?_
    unfold storeLevel
    dsimp only
    split
    · exact stored
    · exact h.on_passes _ stored

theorem Kept.on_setScene (t : Tenant) (k : Slot) (x : Option (Vector SceneEntry 48)) (hs : P s) : P (setScene t k x s) :=
  h.tenant _ _ (fun _ => ⟨rfl, rfl, id⟩) hs

theorem Kept.on_storeScene (t : Tenant) (slot : Byte) (hs : P s) : P (storeScene t slot s) := by
  unfold storeScene
  split
  · exact h.on_setResult _ _ hs
  · exact h.on_setResult _ _ (h.on_setScene t _ _ hs)

theorem Kept.on_clearScene (t : Tenant) (slot : Byte) (hs : P s) : P (clearScene t slot s) := by
  unfold clearScene
  split
  · exact h.on_setResult _ _ hs
  · exact h.on_setResult _ _ (h.on_setScene t _ _ hs)

theorem Kept.on_sceneElement (t : Tenant) (slot : Slot) (b : Byte) (hs : P s) : P (sceneElement t slot b s) := by
  refine h.on_advancePointer _ ?_
  split
  · exact h.on_setResult _ _ hs
  · exact h.on_setScene t _ _ hs

omit h in
theorem recallEntry_tenants (t : Tenant) (scene : Vector SceneEntry 48) (s : State) (z : Zone) :
    (recallEntry t scene s z).tenants = s.tenants := by
  unfold recallEntry
  split
  · rfl
  · split
    · rfl
    · split
      · rfl
      · exact setTarget_tenants z t _ _ s

theorem Kept.on_recallScene (t : Tenant) (slot : Byte) (hq : Q (s.tenant t)) (hs : P s) : P (recallScene t slot s) := by
  unfold recallScene
  split
  · exact h.on_setResult _ _ hs
  · split
    · exact h.on_setResult _ _ hs
    · next scene _ =>
      have entry : ∀ (a : State) (z : Zone), P a ∧ Q (a.tenant t) →
          P (recallEntry t scene a z) ∧ Q ((recallEntry t scene a z).tenant t) := by
        rintro a z ⟨ha, qa⟩
        refine ⟨?_, by rw [State.tenant, recallEntry_tenants]; exact qa⟩
        unfold recallEntry
        split
        · exact ha
        · split
          · exact h.on_setResult _ _ ha
          · split
            · exact ha
            · exact h.on_modCell z t (fun _ => ⟨rfl, rfl, rfl⟩) (h.target z _ _ qa ha)
      exact h.on_finish _ (foldl_kept (P := fun a => P a ∧ Q (a.tenant t)) entry allZones
        ⟨h.on_setResult _ _ hs, hq⟩).1

omit h in
theorem clampFrom1_range {top : Nat} (ht : 1 ≤ top) (v : Nat) : 1 ≤ clampFrom1 top v ∧ clampFrom1 top v ≤ top := by
  unfold clampFrom1
  omega

theorem Kept.on_setSpreading (t : Tenant) (a b c d e f g i : Byte) (hs : P s) : P (setSpreading t a b c d e f g i s) := by
  unfold setSpreading
  dsimp only
  split
  · exact h.on_setResult _ _ hs
  · next hw =>
    have debounce := clampFrom1_range (top := 15) (by omega) f.toNat
    have bounded : SpreadingBounded (spreadingOf a b c d e f g i) :=
      ⟨by omega, by omega, debounce.1, debounce.2, Nat.le_max_left 4 _⟩
    exact h.on_setResult _ _ (h.tenant _ _ (fun _ => ⟨rfl, rfl, fun _ => bounded⟩) hs)

/-! ### The commands of the venue -/

theorem Kept.on_admitTenant (t quota count : Byte) (hs : P s) : P (admitTenant t quota count s) := by
  unfold admitTenant
  split
  · exact h.on_setResult _ _ hs
  · split
    · exact h.on_setResult _ _ hs
    · next hv =>
      split
      · exact h.on_setResult _ _ hs
      · split
        · exact h.on_setResult _ _ hs
        · exact h.on_setResult _ _ (h.on_passAll (h.newTenant _ _ _ (by simpa using hv) (by omega) hs))

theorem Kept.on_setQuota (t share : Byte) (hs : P s) : P (setQuota t share s) := by
  unfold setQuota
  split
  · exact h.on_setResult _ _ hs
  · next u _ =>
    split
    · exact h.on_setResult _ _ hs
    · split
      · exact h.on_setResult _ _ hs
      · have stored := h.quota u share.toNat (by omega) hs
        refine h.on_setResult _ _ ?_
        split
        · exact stored
        · exact h.on_passAll stored

theorem Kept.on_suspendTenant (t : Byte) (hs : P s) : P (suspendTenant t s) := by
  unfold suspendTenant
  split
  · exact h.on_setResult _ _ hs
  · split
    · exact h.on_setResult _ _ hs
    · next ha =>
      rw [endFromOutside_passAll]
      exact h.on_finish _ (h.on_setResult _ _ (h.on_passAll (h.suspension _ (by simpa using ha) hs)))

theorem Kept.on_resumeTenant (t : Byte) (hs : P s) : P (resumeTenant t s) := by
  unfold resumeTenant
  split
  · exact h.on_setResult _ _ hs
  · split
    · exact h.on_setResult _ _ hs
    · next hr => exact h.on_setResult _ _ (h.on_passAll (h.resumption _ (by simpa using hr) hs))

theorem Kept.on_retireTenant (t : Byte) (hs : P s) : P (retireTenant t s) := by
  unfold retireTenant
  split
  · exact h.on_setResult _ _ hs
  · split
    · exact h.on_setResult _ _ hs
    · rw [retirePort_passAll]
      exact h.on_finish _ (h.on_setResult _ _ (h.on_passAll (h.retirement _ hs)))

/-- R10, R11: a live limit held at its ceiling. -/
theorem Kept.on_storeLive (z : Zone) (v : Nat) (hs : P s) : P (storeLive z (min v (s.zone z).ceiling) s) := by
  have e : (s.modZone z fun r => { r with live := min v (s.zone z).ceiling }) =
      s.modZone z fun r => { r with live := min v r.ceiling } := rfl
  have stored : P (s.modZone z fun r => { r with live := min v (s.zone z).ceiling }) := by
    rw [e]
    exact h.zone _ _ (fun r => ⟨rfl, id, fun hr => ⟨Nat.min_le_right _ _, hr.2⟩⟩) hs
  unfold storeLive
  dsimp only
  split
  · exact stored
  · exact h.on_pass z stored

theorem Kept.on_setLimit (zone hi lo : Byte) (hs : P s) : P (setLimit zone hi lo s) := by
  unfold setLimit
  split
  · exact h.on_setResult _ _ hs
  · exact h.on_setResult _ _ (h.on_storeLive _ _ hs)

theorem Kept.on_limitElement (hi lo : Byte) (hs : P s) : P (limitElement hi lo s) := by
  refine h.on_advancePointer _ ?_
  unfold markResult
  split
  · exact h.on_setResult _ _ (h.on_storeLive _ _ hs)
  · exact h.on_storeLive _ _ hs

theorem Kept.on_pinZone (zone : Byte) (hs : P s) : P (pinZone zone s) := by
  unfold pinZone
  split
  · exact h.on_setResult _ _ hs
  · split
    · exact h.on_setResult _ _ hs
    · exact h.on_finish _ (h.on_setResult _ _ (h.pin _ hs))

theorem Kept.on_unpinZone (zone : Byte) (hs : P s) : P (unpinZone zone s) := by
  unfold unpinZone
  split
  · exact h.on_setResult _ _ hs
  · exact h.on_setResult _ _ (h.zone _ _ (fun _ => ⟨rfl, fun e => by simp at e, id⟩) hs)

theorem Kept.on_setVenueMode (mode : Byte) (hs : P s) : P (setVenueMode mode s) := by
  unfold setVenueMode
  split
  · exact h.on_setResult _ _ hs
  · exact h.on_setResult _ _ (h.on_setMode _ hs)

theorem Kept.on_setStandbyClasses (flags : Byte) (hs : P s) : P (setStandbyClasses flags s) :=
  h.on_setResult _ _ (h.on_passes _ (h.settings (t := { s with standbyDark := standbyFlags flags }) rfl id hs))

theorem Kept.on_setWake (hi lo debounce : Byte) (hs : P s) : P (setWake hi lo debounce s) := by
  refine h.on_setResult _ _ (h.settings rfl ?_ hs)
  rintro ⟨tick, step, census, poll, loss, recovery, alarm, _, rest⟩
  exact ⟨tick, step, census, poll, loss, recovery, alarm, clampFrom1_range (by omega) _, rest⟩

theorem Kept.on_setDerate (cls derate : Byte) (hs : P s) : P (setDerate cls derate s) := by
  unfold setDerate
  split
  · exact h.on_setResult _ _ hs
  · next c _ =>
    have stored : P { s with derate := tset s.derate (alarmIdx c) (min derate.toNat 32) } := by
      refine h.settings rfl ?_ hs
      rintro ⟨tick, step, census, poll, loss, recovery, alarm, wake, held, spreading⟩
      refine ⟨tick, step, census, poll, loss, recovery, alarm, wake, fun i => ?_, spreading⟩
      rw [tget_tset]
      split
      · exact Nat.min_le_right _ _
      · exact held i
    refine h.on_setResult _ _ ?_
    unfold storeDerate
    dsimp only
    split
    · exact stored
    · exact h.on_passes _ stored

theorem Kept.on_setEscalation (cls setting : Byte) (hs : P s) : P (setEscalation cls setting s) := by
  unfold setEscalation
  split
  · exact h.on_setResult _ _ hs
  · next c _ =>
    exact h.on_setResult _ _
      (h.settings (t := { s with escalation := tset s.escalation (alarmIdx c) setting.toNat }) rfl id hs)

theorem Kept.on_setSupervision (poll loss recovery debounce : Byte) (hs : P s) :
    P (setSupervision poll loss recovery debounce s) := by
  refine h.on_setResult _ _ (h.settings rfl ?_ hs)
  rintro ⟨tick, step, census, _, _, _, _, rest⟩
  have hp : 5 ≤ clampPoll poll.toNat ∧ clampPoll poll.toNat ≤ 255 := by
    unfold clampPoll
    omega
  have hl : 2 ≤ clampLoss loss.toNat ∧ clampLoss loss.toNat ≤ 15 := by
    unfold clampLoss
    omega
  exact ⟨tick, step, census, hp, hl, clampFrom1_range (by omega) _, clampFrom1_range (by omega) _, rest⟩

theorem Kept.on_setRamp (tick step : Byte) (hs : P s) : P (setRamp tick step s) := by
  refine h.on_setResult _ _ (h.settings rfl ?_ hs)
  rintro ⟨_, _, rest⟩
  have ht : 1 ≤ max 1 tick.toNat ∧ max 1 tick.toNat ≤ 255 := by omega
  exact ⟨ht, clampFrom1_range (by omega) _, rest⟩

theorem Kept.on_setCensus (interval : Byte) (hs : P s) : P (setCensus interval s) := by
  refine h.on_setResult _ _ (h.settings rfl ?_ hs)
  rintro ⟨tick, step, _, rest⟩
  have hi : 1 ≤ max 1 interval.toNat ∧ max 1 interval.toNat ≤ 255 := by omega
  exact ⟨tick, step, hi, rest⟩

theorem Kept.on_isolateRemote (zone : Byte) (hs : P s) : P (isolateRemote zone s) := by
  unfold isolateRemote
  split
  · exact h.on_setResult _ _ hs
  · split
    · exact h.on_setResult _ _ hs
    · exact h.on_setResult _ _ hs
    · exact h.on_finish _ (h.on_setResult _ _ (h.on_enterIsolated _ _ hs))

theorem Kept.on_restoreRemote (zone : Byte) (hs : P s) : P (restoreRemote zone s) := by
  unfold restoreRemote
  split
  · exact h.on_setResult _ _ hs
  · split
    · next hi => exact h.on_setResult _ _ (h.on_pass _ (h.remote _ _ (fun _ => by simp [inService, hi]) hs))
    · exact h.on_setResult _ _ hs

theorem Kept.on_writeStorePage (page : Byte) (records : Vector Byte 32) (hs : P s) : P (writeStorePage page records s) := by
  unfold writeStorePage
  split
  · exact h.on_setResult _ _ hs
  · split
    · exact h.on_setResult _ _ hs
    · split
      · exact h.on_setResult _ _ hs
      · split
        · exact h.on_setResult _ _ hs
        · next ha => exact h.on_setResult _ _ (h.storeWrite _ _ (by simpa using ha) hs)

theorem Kept.on_lockStorePage (page : Byte) (hs : P s) : P (lockStorePage page s) := by
  unfold lockStorePage
  split
  · exact h.on_setResult _ _ hs
  · split
    · exact h.on_setResult _ _ hs
    · split
      · exact h.on_setResult _ _ hs
      · split
        · exact h.on_setResult _ _ hs
        · exact h.on_setResult _ _ (h.storeLock _ hs)

theorem Kept.on_readStorePage (page : Byte) (hs : P s) : P (readStorePage page s) := by
  unfold readStorePage
  split
  · exact h.on_setResult _ _ hs
  · split
    · exact h.on_setResult _ _ hs
    · exact h.cmd _ _ (by simp) (h.on_setResult _ _ hs)

theorem Kept.on_weightElement (i : Fin 16) (b : Byte) (hs : P s) : P (weightElement i b s) :=
  h.settings (t := weightElement i b s) rfl id hs

/-! ### Octets on a port (chapter 10) -/

omit h in
theorem with1_kept {f : Byte → State → State} (hf : ∀ a, P (f a s)) (os : List Byte) (hs : P s) : P (with1 os f s) := by
  unfold with1
  split
  · exact hf _
  · exact hs

omit h in
theorem with2_kept {f : Byte → Byte → State → State} (hf : ∀ a b, P (f a b s)) (os : List Byte) (hs : P s) :
    P (with2 os f s) := by
  unfold with2
  split
  · exact hf _ _
  · exact hs

omit h in
theorem with3_kept {f : Byte → Byte → Byte → State → State} (hf : ∀ a b c, P (f a b c s)) (os : List Byte) (hs : P s) :
    P (with3 os f s) := by
  unfold with3
  split
  · exact hf _ _ _
  · exact hs

theorem Kept.on_completeTenant (t : Tenant) (c : Command) (os : List Byte) (hq : Q (s.tenant t)) (hs : P s) :
    P (completeTenant t c os s) := by
  unfold completeTenant
  split
  · exact with2_kept (fun _ _ => h.on_setWindow _ _ _ hs) os hs
  · exact with2_kept (fun _ _ => h.on_requestMove t _ _ hq hs) os hs
  · exact with1_kept (fun _ => h.on_cancelMove t _ hq hs) os hs
  · exact with3_kept (fun _ _ _ => h.on_setLevel t _ _ _ hs) os hs
  · exact with1_kept (fun _ => h.on_storeScene t _ hs) os hs
  · exact with1_kept (fun _ => h.on_recallScene t _ hq hs) os hs
  · exact with1_kept (fun _ => h.on_clearScene t _ hs) os hs
  · unfold with8
    split
    · exact h.on_setSpreading t _ _ _ _ _ _ _ _ hs
    · exact hs
  · exact hs

theorem Kept.on_completeVenue (c : Command) (os : List Byte) (hs : P s) : P (completeVenue c os s) := by
  unfold completeVenue
  split
  · exact with2_kept (fun _ _ => h.on_setWindow _ _ _ hs) os hs
  · exact with3_kept (fun _ _ _ => h.on_admitTenant _ _ _ hs) os hs
  · exact with1_kept (fun _ => h.on_suspendTenant _ hs) os hs
  · exact with1_kept (fun _ => h.on_resumeTenant _ hs) os hs
  · exact with1_kept (fun _ => h.on_retireTenant _ hs) os hs
  · exact with2_kept (fun _ _ => h.on_setQuota _ _ hs) os hs
  · exact with3_kept (fun _ _ _ => h.on_setLimit _ _ _ hs) os hs
  · exact with1_kept (fun _ => h.on_pinZone _ hs) os hs
  · exact with1_kept (fun _ => h.on_unpinZone _ hs) os hs
  · exact with1_kept (fun _ => h.on_setVenueMode _ hs) os hs
  · exact with1_kept (fun _ => h.on_setStandbyClasses _ hs) os hs
  · exact with3_kept (fun _ _ _ => h.on_setWake _ _ _ hs) os hs
  · exact with2_kept (fun _ _ => h.on_setDerate _ _ hs) os hs
  · exact with2_kept (fun _ _ => h.on_setEscalation _ _ hs) os hs
  · unfold with4
    split
    · exact h.on_setSupervision _ _ _ _ hs
    · exact hs
  · exact with2_kept (fun _ _ => h.on_setRamp _ _ hs) os hs
  · exact with1_kept (fun _ => h.on_setCensus _ hs) os hs
  · exact with1_kept (fun _ => h.on_isolateRemote _ hs) os hs
  · exact with1_kept (fun _ => h.on_restoreRemote _ hs) os hs
  · unfold withPage
    split
    · exact h.on_writeStorePage _ _ hs
    · exact hs
  · exact with1_kept (fun _ => h.on_lockStorePage _ hs) os hs
  · exact with1_kept (fun _ => h.on_readStorePage _ hs) os hs
  · exact hs

/-- A port with a command in progress may go on to any other. -/
theorem Kept.on_progress {p : Port} (hb : ¬ Resting (s.port p).cmd) (c : Progress) (hs : P s) : P (setCmd p c s) := by
  refine h.cmd p c (fun t e => .inr ?_) hs
  subst e
  exact h.busy hs hb

theorem Kept.on_complete {p : Port} (hb : ¬ Resting (s.port p).cmd) (c : Command) (os : List Byte) (hs : P s) :
    P (complete p c os s) := by
  have idle := h.on_progress hb .idle hs
  cases p with
  | tenant t =>
    have hq : Q (s.tenant t) := h.busy hs hb
    exact h.on_completeTenant t c os hq idle
  | venue => exact h.on_completeVenue c os idle

theorem Kept.on_applyElement {p : Port} (hb : ¬ Resting (s.port p).cmd) (w : WriteTo) (os : List Byte) (hs : P s) :
    P (applyElement p w os s) := by
  unfold applyElement
  split
  · exact with1_kept (fun _ => h.on_targetElement _ _ (h.busy hs hb) hs) os hs
  · exact h.on_alternatesElement _ os hs
  · exact with1_kept (fun _ => h.on_sceneElement _ _ _ hs) os hs
  · exact with2_kept (fun _ _ => h.on_limitElement _ _ hs) os hs
  · next i =>
    have next : P (setCmd .venue (.streaming (.weights (i + 1)) []) s) := h.on_progress hb _ hs
    exact with1_kept (fun b => h.on_weightElement i b next) os next
  · exact hs

theorem Kept.on_takeLeading {p : Port} (hb : ¬ Resting (s.port p).cmd) (c : Command) (b : Byte) (hs : P s) :
    P (takeLeading p c b s) := by
  have next := fun c => h.on_progress hb c hs
  have refused := h.on_setResult p .range (next .idle)
  unfold takeLeading
  dsimp only
  split
  · split
    · exact next _
    · exact refused
  · split
    · exact next _
    · exact refused
  · split
    · exact next _
    · exact refused
  · exact hs

omit h in
/-- A read of the part's records is a command in progress. -/
theorem not_resting_reading {r : ReadFrom} (hr : ∀ os, r ≠ .reply os) (held : Option (List Byte)) (n : Nat) :
    ¬ Resting (.reading r held n) := by
  rintro (e | ⟨os, x, m, e⟩)
  · cases e
  · cases e
    exact hr os rfl

theorem Kept.on_countOctet {p : Port} {r : ReadFrom} {held : Option (List Byte)} {pos : Nat}
    (hc : (s.port p).cmd = .reading r held pos) (hs : P s) : P (countOctet p r held pos s) := by
  unfold countOctet
  split
  · exact h.cmd _ _ (fun _ _ => .inl (.inr ⟨_, _, _, rfl⟩)) hs
  · next hr =>
    have next := fun c => h.on_progress (hc ▸ not_resting_reading hr held pos) c hs
    split
    · exact next _
    · dsimp only
      split
      · exact h.on_advancePointer p (next _)
      · exact next _

theorem Kept.on_takeParam (p : Port) (b : Byte) (hs : P s) : P (takeParam p b s) := by
  unfold takeParam
  split
  · exact hs
  · next c os hc =>
    have hb : ¬ Resting (s.port p).cmd := by simp [hc, Resting]
    dsimp only
    split
    · exact h.on_complete hb c _ hs
    · exact h.on_progress hb _ hs
  · next c hc => exact h.on_takeLeading (by simp [hc, Resting]) c b hs
  · next w part hc =>
    have hb : ¬ Resting (s.port p).cmd := by simp [hc, Resting]
    dsimp only
    split
    · exact h.on_applyElement (by simp [setCmd, Resting]) w _ (h.on_progress hb _ hs)
    · exact h.on_progress hb _ hs
  · next r held pos hc => exact h.on_countOctet hc hs

omit h in
/-- R165: every command but READ STATUS and READ FAULT is refused on the port of a tenant that is not ACTIVE. -/
theorem active_of_accepted {t : Tenant} {c : Command} (hr : refusalOf s (.tenant t) c = none) (h1 : c ≠ .readStatus)
    (h2 : c ≠ .readFault) : (s.tenant t).state = .active := by
  have act : (if isActive s t = true then none else some Result.state) = none → (s.tenant t).state = .active := by
    intro e
    by_contra hn
    simp [isActive, hn] at e
  unfold refusalOf at hr
  dsimp only at hr
  split at hr
  · cases hr
  · exact act hr
  · split at hr
    · exact absurd rfl h1
    · exact absurd rfl h2
    · exact act hr

theorem Kept.on_acceptCode {p : Port} {c : Command} (hr : refusalOf s p c = none) (hs : P s) : P (acceptCode p c s) := by
  have coded : ∀ b r, P (setCodeResult p b r s) := fun b r => h.on_setCodeResult p b r hs
  have placed : ∀ b r, P (placePointer p (setCodeResult p b r s)) := fun b r => h.port _ _ (fun _ => ⟨rfl, rfl⟩) (coded b r)
  have busy : c ≠ .readStatus → c ≠ .readFault → ∀ t, p = .tenant t → Q (s.tenant t) := fun h1 h2 t e =>
    h.active _ (active_of_accepted (e ▸ hr) h1 h2)
  have reply : ∀ (x : State) (os : List Byte), P x → P (setCmd p (.reading (.reply os) none 0) x) := fun x os hx =>
    h.cmd _ _ (fun _ _ => .inl (.inr ⟨_, _, _, rfl⟩)) hx
  have other : c ≠ .readStatus → c ≠ .readFault →
      (∀ b r prog, P (setCmd p prog (setCodeResult p b r s))) ∧
        ∀ b r prog, P (beginWindowed p prog (setCodeResult p b r s)) := fun h1 h2 =>
    ⟨fun b r prog => h.cmd _ _ (fun t e => .inr (busy h1 h2 t e)) (coded b r),
      fun b r prog => h.cmd _ _ (fun t e => .inr (busy h1 h2 t e)) (placed b r)⟩
  unfold acceptCode
  dsimp only
  split
  · exact reply _ _ (h.port _ _ (fun _ => ⟨rfl, rfl⟩) hs)
  · unfold takeFault
    split
    · exact coded _ _
    · next r hd => exact reply _ _ (h.read p r hd (coded _ _))
  · exact h.resetBegins (coded _ _)
  · exact (other (by simp) (by simp)).2 _ _ _
  · exact (other (by simp) (by simp)).2 _ _ _
  · exact (other (by simp) (by simp)).2 _ _ _
  · exact (other (by simp) (by simp)).2 _ _ _
  · exact (other (by simp) (by simp)).1 _ _ _
  · unfold beginColumnRead
    split <;> exact (other (by simp) (by simp)).2 _ _ _
  · unfold beginColumnRead
    split <;> exact (other (by simp) (by simp)).2 _ _ _
  · exact (other (by simp) (by simp)).2 _ _ _
  · unfold beginLoads
    split
    · exact (other (by simp) (by simp)).1 _ _ _
    · exact coded _ _
  · exact (other (by simp) (by simp)).1 _ _ _
  · next h1 h2 _ _ _ _ _ _ _ _ _ _ _ => exact (other h1 h2).1 _ _ _

theorem Kept.on_takeCode (p : Port) (b : Byte) (hs : P s) : P (takeCode p b s) := by
  have idle : P (setCmd p .idle s) := h.cmd _ _ (fun _ _ => .inl (.inl rfl)) hs
  unfold takeCode
  dsimp only
  split
  · exact h.on_setCodeResult p _ _ idle
  · split
    · exact h.on_setCodeResult p _ _ idle
    · next hr => exact h.on_acceptCode hr idle

theorem Kept.on_beginOctet (p : Port) (hs : P s) : P (beginOctet p s) := by
  unfold beginOctet
  split
  · next r pos hc =>
    by_cases hr : ∃ os, r = .reply os
    · obtain ⟨os, rfl⟩ := hr
      exact h.cmd _ _ (fun _ _ => .inl (.inr ⟨_, _, _, rfl⟩)) hs
    · exact h.on_progress (hc ▸ not_resting_reading (fun os e => hr ⟨os, e⟩) _ _) _ hs
  · exact hs

theorem Kept.on_takeOctet (p : Port) (o : Bool × Byte) (hs : P s) : P (takeOctet p s o) := by
  unfold takeOctet
  split
  · exact h.port _ _ (fun _ => ⟨rfl, rfl⟩) hs
  · dsimp only
    have presented : ∀ b, P (present p b (beginOctet p s)) := fun b =>
      h.port _ _ (fun _ => ⟨rfl, rfl⟩) (h.on_beginOctet p hs)
    split
    · exact h.on_takeParam p _ (presented _)
    · exact h.on_takeCode p _ (presented _)

theorem Kept.on_clockBits (p : Port) (bits : List LineBit) (hs : P s) : P (clockBits p bits s) := by
  unfold clockBits
  split
  · exact h.port _ _ (fun _ => ⟨rfl, rfl⟩) hs
  · split
    · exact h.port _ _ (fun _ => ⟨rfl, rfl⟩) hs
    · have taken : P ((cutOctets (s.port p).assembly bits).1.foldl (takeOctet p)
          (s.modPort p fun q => { q with assembly := [], dataOut := [] })) :=
        foldl_kept (fun _ o => h.on_takeOctet p o) _ (h.port _ _ (fun _ => ⟨rfl, rfl⟩) hs)
      unfold takeBits beginNext
      dsimp only
      split
      · exact taken
      · exact h.on_beginOctet p (h.port _ _ (fun _ => ⟨rfl, rfl⟩) taken)

/-! ### The carrier events and the store -/

theorem Kept.on_carrierEvent (t : Tenant) (k : Sector) (lock : Bool) (hs : P s) : P (carrierEvent t k lock s) := by
  have noted : P { s with carrierLock := tmod s.carrierLock t fun row => tset row k lock } := h.settings rfl id hs
  unfold carrierEvent
  dsimp only
  split
  · exact h.on_passes _ (h.append _ (h.tenant _ _ (fun _ => ⟨rfl, rfl, id⟩) noted))
  · exact noted

theorem Kept.on_rebind (z : Zone) (hs : P s) : P (rebind z s) := by
  unfold rebind
  dsimp only
  have out : ∀ x : Option Binding, inService (s.modRemote z fun _ =>
      { RemoteRec.unbound with state := if x.isSome = true then .searching else .unbound }) z = false := by
    intro x
    cases x <;> simp [inService]
  split
  · exact h.leave z _ (out _) hs
  · next hw => exact h.remote z _ (fun _ => by simpa using hw) hs

theorem Kept.on_writeCompletion (hs : P s) : P (writeCompletion s) := by
  unfold writeCompletion
  split
  · next p records hop =>
    have stored : P { s with pages := tset s.pages p (sealPage (writtenOctets records)) } := h.settings rfl id hs
    have copied := h.copies (s := { s with pages := tset s.pages p (sealPage (writtenOctets records)) }) p records hop stored
    dsimp only
    split
    · exact h.on_gainStoreDone (h.storeEnd stored)
    · refine h.on_finish _ (h.on_gainStoreDone (h.on_passes _ (foldl_kept (fun a z ha => ?_) _ copied)))
      split
      · exact ha
      · exact h.on_rebind z ha
  · exact hs

theorem Kept.on_lockCompletion (hs : P s) : P (lockCompletion s) := by
  unfold lockCompletion
  split
  · next p _ =>
    have stored : P { s with pages := tmod s.pages p fun pg => sealPage (lockedOctets pg.octets) } := h.settings rfl id hs
    exact h.on_gainStoreDone (h.storeEnd stored)
  · exact hs

/-! ### Every step -/

/-- What the changes keep, every event keeps. -/
theorem Kept.on_event {t : State} (e : Event s t) (hs : P s) : P t := by
  cases e with
  | burst c p b => cases b <;> exact h.on_clockBits p _ hs
  | element p c => exact h.on_clockBits p _ hs
  | code p b c => exact h.on_clockBits p _ hs
  | hardwareReset => exact h.hardware hs
  | startUp => exact h.restart hs
  | selectRise p => exact h.port _ _ (fun _ => ⟨rfl, rfl⟩) hs
  | selectFall p =>
    refine h.port _ _ (fun q => ?_) hs
    split <;> exact ⟨rfl, rfl⟩
  | rampTimer => exact h.on_rampExpiry hs
  | censusTimer => exact h.on_censusExpiry hs
  | pollTimer => exact h.on_pollExpiry hs
  | pollSent f => exact h.on_pollEnd f hs
  | chars f cs => exact h.on_takeChars f cs hs
  | replyTimer f => exact h.on_replyExpiry f hs
  | frameSent f => exact h.on_frameEnd f hs
  | lockLost f => exact h.on_lockLost f hs
  | lockBack f => exact h.on_lockBack f hs
  | carrier t k lock => exact h.on_carrierEvent t k lock hs
  | written => exact h.on_writeCompletion hs
  | locked => exact h.on_lockCompletion hs
  | second => exact h.settings (t := { s with seconds := s.seconds + 1 }) rfl id hs

/-- What the changes keep, every step keeps. -/
theorem Kept.on_step {t : State} (e : step s = .next t) (hs : P s) : P t := by
  obtain rfl | ⟨rest, he⟩ := step_event e
  · exact hs
  · exact h.on_event he (h.settings (t := { s with pending := rest }) rfl id hs)

end
end Sys2Proof.Machine

namespace Sys2Proof.Machine

/-! ### The log and its readers -/

theorem logReasonOf_congr {s t : State} {p : Port} (hl : t.log = s.log) (hr : t.reader p = s.reader p) :
    logReasonOf t p = logReasonOf s p := by simp only [logReasonOf, hl, hr]

theorem evalLog_eq (p : Port) (s : State) : evalLog p s = { s with ports := (evalLog p s).ports } := rfl

theorem evalLog_reason (p q : Port) (s : State) :
    ((evalLog p s).port q).log = if p = q then logReasonOf s q else (s.port q).log := by
  unfold evalLog
  split
  · next e =>
    subst e
    simp
  · next e => rw [State.port_modPort_ne _ _ _ _ e]

theorem evalLog_cmd (p q : Port) (s : State) : ((evalLog p s).port q).cmd = (s.port q).cmd := by
  unfold evalLog
  by_cases e : p = q
  · subst e
    simp
  · rw [State.port_modPort_ne _ _ _ _ e]

theorem foldl_evalLog_reason (l : List Port) (q : Port) (s : State) :
    ((l.foldl (fun s p => evalLog p s) s).port q).log = if q ∈ l then logReasonOf s q else (s.port q).log := by
  induction l generalizing s with
  | nil => simp
  | cons p rest ih =>
    rw [List.foldl_cons, ih, evalLog_reason, logReasonOf_congr (s := s) (t := evalLog p s) rfl rfl]
    by_cases hr : q ∈ rest
    · simp [hr]
    · by_cases e : p = q
      · simp [e]
      · simp [hr, e, Ne.symm e]

theorem mem_allPorts (p : Port) : p ∈ allPorts := by
  cases p with
  | venue => decide
  | tenant t =>
    revert t
    decide

/-- R148: evaluating every reader leaves every reason as its reader and the log give it. -/
theorem evalLogAll_reason (q : Port) (s : State) : ((evalLogAll s).port q).log = logReasonOf s q := by
  rw [evalLogAll, foldl_evalLog_reason, if_pos (mem_allPorts q)]

theorem evalLogAll_eq (s : State) : evalLogAll s = { s with ports := (evalLogAll s).ports } := by
  unfold evalLogAll
  generalize allPorts = l
  induction l generalizing s with
  | nil => rfl
  | cons p rest ih => rw [List.foldl_cons, ih, evalLog_eq p s]

theorem discardOldest_eq (s : State) :
    discardOldest s =
      { s with
        log := (discardOldest s).log
        venueReader := (discardOldest s).venueReader
        tenantReaders := (discardOldest s).tenantReaders } := by
  unfold discardOldest
  split
  · rfl
  · split <;> rfl

/-- R143, R144, R148: an append changes the log, its readers and the LOG reasons alone. -/
theorem appendLog_eq (e : Entry) (s : State) :
    appendLog e s =
      { s with
        log := (appendLog e s).log
        venueReader := (appendLog e s).venueReader
        tenantReaders := (appendLog e s).tenantReaders
        ports := (appendLog e s).ports } := by
  unfold appendLog
  dsimp only
  rw [evalLogAll_eq, discardOldest_eq s]

theorem appendLog_log (e : Entry) (s : State) : (appendLog e s).log = (discardOldest s).log ++ [e] := by
  unfold appendLog
  dsimp only
  rw [evalLogAll_eq]

theorem appendLog_reader (e : Entry) (s : State) (p : Port) : (appendLog e s).reader p = (discardOldest s).reader p := by
  unfold appendLog
  dsimp only
  rw [evalLogAll_eq]
  cases p <;> rfl

/-- R148: an append leaves every reason as its reader and the log give it. -/
theorem appendLog_reason (e : Entry) (s : State) (p : Port) :
    ((appendLog e s).port p).log = logReasonOf (appendLog e s) p := by
  have h : logReasonOf (appendLog e s) p = logReasonOf { discardOldest s with log := (discardOldest s).log ++ [e] } p :=
    logReasonOf_congr (appendLog_log e s) (appendLog_reader e s p)
  rw [h]
  exact evalLogAll_reason p _

/-- R144: what the discard before an append leaves of a bounded log: room for the entry, and every cursor in the log. -/
theorem discardOldest_bounded {s : State} (h : LogBounded s) :
    (discardOldest s).log.length ≤ 63 ∧
      ∀ p r, (discardOldest s).reader p = some r → r.cursor ≤ (discardOldest s).log.length ∧ r.lost ≤ 255 := by
  obtain ⟨hlen, hr⟩ := h
  unfold discardOldest
  split
  · next e => exact ⟨by simp [e], hr⟩
  · next e rest hlog =>
    split
    · next hl => exact ⟨by omega, hr⟩
    · have after : ∀ p r, r.cursor ≤ s.log.length ∧ r.lost ≤ 255 →
          (readerAfterDiscard p e r).cursor ≤ rest.length ∧ (readerAfterDiscard p e r).lost ≤ 255 := by
        rintro p r ⟨hc, hl⟩
        rw [hlog, List.length_cons] at hc
        unfold readerAfterDiscard
        split
        · next h0 =>
          refine ⟨by simp [h0], ?_⟩
          dsimp only
          split
          · exact Nat.min_le_right _ _
          · exact hl
        · exact ⟨by dsimp only; omega, hl⟩
      refine ⟨by rw [hlog, List.length_cons] at hlen; dsimp only; omega, fun p r hp => ?_⟩
      cases p with
      | venue =>
        obtain rfl : readerAfterDiscard .venue e s.venueReader = r := Option.some.inj hp
        exact after _ _ (hr .venue _ rfl)
      | tenant t =>
        obtain ⟨x, hx, rfl⟩ : ∃ x, tget s.tenantReaders t = some x ∧ readerAfterDiscard (.tenant t) e x = r := by
          simpa [State.reader] using hp
        exact after _ _ (hr (.tenant t) x hx)

theorem logBounded_append (e : Entry) {s : State} (h : LogBounded s) : LogBounded (appendLog e s) := by
  obtain ⟨hlen, hr⟩ := discardOldest_bounded h
  refine ⟨by rw [appendLog_log, List.length_append, List.length_singleton]; omega, fun p r hp => ?_⟩
  rw [appendLog_reader] at hp
  obtain ⟨hc, hl⟩ := hr p r hp
  exact ⟨by rw [appendLog_log, List.length_append]; omega, hl⟩

theorem firstVisible_lt {p : Port} {l : List Entry} {i j : Nat} {e : Entry} (h : firstVisible p l i = some (j, e)) :
    j < i + l.length := by
  induction l generalizing i with
  | nil => cases h
  | cons x rest ih =>
    unfold firstVisible at h
    split at h
    · cases h
      simp
    · have := ih h
      simp only [List.length_cons]
      omega

/-- R146: a read of the log is a change of the reader's cursor and lost count, and of its reason. -/
theorem readLog_eq (p : Port) (r : Reader) (s : State) :
    ∃ n, (readLog p r s).2 = evalLog p (s.setReader p ⟨n, 0⟩) ∧ (r.cursor ≤ s.log.length → n ≤ s.log.length) := by
  unfold readLog
  split
  · next i e h =>
    have := firstVisible_lt h
    rw [List.length_drop] at this
    exact ⟨i + 1, rfl, fun hc => by omega⟩
  · exact ⟨s.log.length, rfl, fun _ => Nat.le_refl _⟩

theorem setReader_eq (p : Port) (r : Reader) (s : State) :
    s.setReader p r = { s with venueReader := (s.setReader p r).venueReader, tenantReaders := (s.setReader p r).tenantReaders } := by
  cases p <;> rfl

theorem reader_setReader (p q : Port) (r : Reader) (s : State) :
    (s.setReader p r).reader q = if p = q then some r else s.reader q := by
  cases p with
  | venue => cases q <;> simp [State.setReader, State.reader]
  | tenant t =>
    cases q with
    | venue => simp [State.setReader, State.reader]
    | tenant u =>
      simp only [State.setReader, State.reader, tget_tset, Port.tenant.injEq]

/-- A reader set within the log, and its reason evaluated. -/
theorem logBounded_setReader {s : State} (h : LogBounded s) (p : Port) {n : Nat} (hn : n ≤ s.log.length) :
    LogBounded (evalLog p (s.setReader p ⟨n, 0⟩)) := by
  have hlog : (s.setReader p ⟨n, 0⟩).log = s.log := by rw [setReader_eq]
  refine ⟨by rw [evalLog_eq]; exact hlog ▸ h.1, fun q r hq => ?_⟩
  have hq' : (s.setReader p ⟨n, 0⟩).reader q = some r := by
    cases q <;> exact hq
  rw [evalLog_eq]
  dsimp only
  rw [hlog]
  rw [reader_setReader] at hq'
  split at hq'
  · cases hq'
    exact ⟨hn, by simp⟩
  · exact h.2 q r hq'

theorem logReasons_setReader {s : State} (h : LogReasonsSound s) (p : Port) (r : Reader) :
    LogReasonsSound (evalLog p (s.setReader p r)) := by
  have same : ∀ x q, (evalLog p x).reader q = x.reader q := fun x q => by cases q <;> rfl
  intro q
  refine (evalLog_reason p q _).trans ?_
  change _ = logReasonOf (evalLog p (s.setReader p r)) q
  rw [logReasonOf_congr (s := s.setReader p r) (t := evalLog p (s.setReader p r)) rfl (same _ q)]
  split
  · rfl
  · next e =>
    have hp : (s.setReader p r).port q = s.port q := by rw [setReader_eq]; rfl
    rw [hp, logReasonOf_congr (s := s) (t := s.setReader p r) (by rw [setReader_eq]) (by rw [reader_setReader, if_neg e])]
    exact h q

end Sys2Proof.Machine

namespace Sys2Proof.Machine

/-! ### The records of the store -/

/-- The entries of a list of records that has no two bindings equal. -/
theorem distinctBindings_nodup {l : List Binding} (h : distinctBindings l = true) : l.Nodup := by
  induction l with
  | nil => exact .nil
  | cons b rest ih =>
    simp only [distinctBindings, Bool.and_eq_true, Bool.not_eq_true', List.contains_eq_mem, decide_eq_false_iff_not] at h
    exact List.nodup_cons.mpr ⟨h.1, ih h.2⟩

/-- R9, R151: the ceiling of a record in range. -/
theorem recordOf_ceiling {a b c d : Byte} {r : StoreRecord} (h : recordOf a b c d = some r) : r.ceiling ≤ 16383 := by
  unfold recordOf at h
  split at h
  · split at h
    · next hc =>
      cases h
      exact hc
    · cases h
  · cases h

/-- What the records of a page hold: one for each four octets, each in range. -/
theorem recordsOf_spec (l : List Byte) {rs : List StoreRecord} (h : recordsOf l = some rs) :
    rs.length = l.length / 4 ∧ ∀ r ∈ rs, r.ceiling ≤ 16383 := by
  induction l using recordsOf.induct generalizing rs with
  | case1 c1 c0 cls bind rest r rs' hrs hr ih =>
    simp only [recordsOf, hr, hrs, Option.some.injEq] at h
    subst h
    obtain ⟨hlen, hceil⟩ := ih hrs
    exact ⟨by simp only [List.length_cons]; omega, by simpa [recordOf_ceiling hr] using hceil⟩
  | case2 c1 c0 cls bind rest hn =>
    rw [recordsOf] at h
    split at h
    · next r rs' hr hrs => exact absurd hrs (hn r rs' hr)
    · cases h
  | case3 l hl =>
    have short : l.length < 4 := by
      rcases l with _ | ⟨a, _ | ⟨b, _ | ⟨c, _ | ⟨d, rest⟩⟩⟩⟩
      · simp
      · simp
      · simp
      · simp
      · exact absurd rfl (hl a b c d rest)
    rw [recordsOf.eq_2 _ hl, Option.some.injEq] at h
    subst h
    exact ⟨by simp; omega, by simp⟩

/-- Two places of a list of records that hold the same binding are one place. -/
theorem zip_binding_inj {zs : List Zone} {rs : List StoreRecord} (hl : rs.length ≤ zs.length) (h : (bindingsOf rs).Nodup) {x y : Zone × StoreRecord}
    (hx : x ∈ zs.zip rs) (hy : y ∈ zs.zip rs) {b : Binding} (bx : x.2.binding = some b) (b_y : y.2.binding = some b) :
    x = y := by
  have apart : rs.Pairwise fun r r' => ∀ b, r.binding = some b → ∀ b', r'.binding = some b' → b ≠ b' :=
    List.pairwise_filterMap.mp h
  have zipped : (zs.zip rs).Pairwise fun x y => ∀ b, x.2.binding = some b → ∀ b', y.2.binding = some b' → b ≠ b' :=
    List.pairwise_map.mp ((List.map_snd_zip hl).symm ▸ apart)
  have sym : Std.Symm fun x y : Zone × StoreRecord => ∀ b, x.2.binding = some b → ∀ b', y.2.binding = some b' → b ≠ b' :=
    ⟨fun _ _ hxy b hb b' hb' e => hxy b' hb' b hb e.symm⟩
  by_contra hne
  exact zipped.forall hx hy hne b bx b b_y rfl

/-- A fold that changes entries of a table: each entry that it names is a changed one, and the others are as before. -/
theorem foldl_tmod_cases {α β : Type} {n : Nat} (g : β → α → α) (l : List (Fin n × β)) (v : Vector α n) (i : Fin n) :
    (∃ b x, (i, b) ∈ l ∧ tget (l.foldl (fun v y => tmod v y.1 (g y.2)) v) i = g b x) ∨
      (i ∉ l.map Prod.fst ∧ tget (l.foldl (fun v y => tmod v y.1 (g y.2)) v) i = tget v i) := by
  induction l generalizing v with
  | nil => exact .inr ⟨by simp, rfl⟩
  | cons y rest ih =>
    rw [List.foldl_cons]
    rcases ih (tmod v y.1 (g y.2)) with ⟨b, x, hb, e⟩ | ⟨hi, e⟩
    · exact .inl ⟨b, x, List.mem_cons_of_mem _ hb, e⟩
    · rw [e, tget_tmod]
      split
      · next hy => exact .inl ⟨y.2, tget v i, by simp [← hy], rfl⟩
      · next hy => exact .inr ⟨by simpa [Ne.symm hy] using hi, rfl⟩

/-! ### The copies of a page write (R154) -/

theorem mem_zonesOfPage {p : PageNo} {z : Zone} : z ∈ zonesOfPage p ↔ pageOfZone z = p := by
  simp only [zonesOfPage, pageOfZone, List.mem_map, List.mem_finRange, true_and, Fin.ext_iff]
  constructor
  · rintro ⟨i, hi⟩
    omega
  · intro hz
    exact ⟨⟨z.val % 8, by omega⟩, by dsimp only; omega⟩

theorem copyRecords_eq (p : PageNo) (rs : List StoreRecord) (s : State) :
    copyRecords p rs s =
      { s with zones := ((zonesOfPage p).zip rs).foldl (fun v y => tmod v y.1 (copyRecord y.2)) s.zones } := by
  unfold copyRecords
  generalize (zonesOfPage p).zip rs = l
  induction l generalizing s with
  | nil => rfl
  | cons y rest ih =>
    rw [List.foldl_cons, ih]
    rfl

/-- R153: what the check of a page write tells of its records. -/
theorem recordsAcceptable_spec {s : State} {p : PageNo} {records : Vector Byte 32}
    (h : recordsAcceptable s p records.toList = true) :
    ∃ rs, recordsOf records.toList = some rs ∧ rs.length = 8 ∧ (∀ r ∈ rs, r.ceiling ≤ 16383) ∧ (bindingsOf rs).Nodup ∧
      ∀ z b, pageOfZone z ≠ p → (s.zone z).binding = some b → b ∉ bindingsOf rs := by
  unfold recordsAcceptable at h
  split at h
  · cases h
  · next rs hrs =>
    obtain ⟨hlen, hceil⟩ := recordsOf_spec _ hrs
    simp only [Bool.and_eq_true, Bool.not_eq_true', List.any_eq_false, List.contains_eq_mem, decide_eq_true_eq] at h
    refine ⟨rs, hrs, by simpa using hlen, hceil, distinctBindings_nodup h.1, fun z b hz hb hm => h.2 b hm ?_⟩
    unfold otherBindings
    exact List.mem_filterMap.mpr ⟨z, List.mem_filter.mpr ⟨List.mem_finRange z, by simpa using hz⟩, hb⟩

/-- R154: a zone after the copies of a page: a record of the page, or its own record as it was. -/
theorem copyRecords_zone (p : PageNo) {rs : List StoreRecord} (hl : rs.length = 8) (s : State) (z : Zone) :
    (∃ r x, (z, r) ∈ (zonesOfPage p).zip rs ∧ (copyRecords p rs s).zone z = copyRecord r x) ∨
      (pageOfZone z ≠ p ∧ (copyRecords p rs s).zone z = s.zone z) := by
  have keys : ((zonesOfPage p).zip rs).map Prod.fst = zonesOfPage p :=
    List.map_fst_zip (by rw [hl]; simp [zonesOfPage])
  rw [copyRecords_eq]
  rcases foldl_tmod_cases copyRecord ((zonesOfPage p).zip rs) s.zones z with h | ⟨hz, e⟩
  · exact .inl h
  · rw [keys] at hz
    exact .inr ⟨fun e => hz (mem_zonesOfPage.mpr e), e⟩

theorem copyRecords_bindings {s : State} {p : PageNo} {rs : List StoreRecord} (hl : rs.length = 8)
    (hn : (bindingsOf rs).Nodup) (ho : ∀ z b, pageOfZone z ≠ p → (s.zone z).binding = some b → b ∉ bindingsOf rs)
    (hs : ∀ y z b, (s.zone y).binding = some b → (s.zone z).binding = some b → y = z) (y z : Zone) (b : Binding)
    (hy : ((copyRecords p rs s).zone y).binding = some b) (hz : ((copyRecords p rs s).zone z).binding = some b) :
    y = z := by
  have hlen : rs.length ≤ (zonesOfPage p).length := by simp [hl, zonesOfPage]
  have held : ∀ {x r}, (x, r) ∈ (zonesOfPage p).zip rs → r.binding = some b → b ∈ bindingsOf rs := fun hm hb =>
    List.mem_filterMap.mpr ⟨_, (List.of_mem_zip hm).2, hb⟩
  rcases copyRecords_zone p hl s y with ⟨r, _, ry, ey⟩ | ⟨py, ey⟩ <;>
    rcases copyRecords_zone p hl s z with ⟨r', _, rz, ez⟩ | ⟨pz, ez⟩ <;> rw [ey] at hy <;> rw [ez] at hz
  · exact congrArg Prod.fst (zip_binding_inj hlen hn ry rz hy hz)
  · exact absurd (held ry hy) (ho z b pz hz)
  · exact absurd (held rz hz) (ho y b py hy)
  · exact hs y z b hy hz

/-! ### The pages that start-up loads (R160) -/

/-- R160: what a page that start-up loads tells: records in range, eight of them, no binding twice, and none loaded
before. -/
theorem loadable_spec {loaded : List Binding} {pg : Page} {rs : List StoreRecord} (h : loadable loaded pg = some rs) :
    rs.length = 8 ∧ (∀ r ∈ rs, r.ceiling ≤ 16383) ∧ (bindingsOf rs).Nodup ∧ ∀ b ∈ bindingsOf rs, b ∉ loaded := by
  unfold loadable at h
  split at h
  · split at h
    · next rs' hrs =>
      obtain ⟨hlen, hceil⟩ := recordsOf_spec _ hrs
      split at h
      · next hd =>
        cases h
        simp only [Bool.and_eq_true, Bool.not_eq_true', List.any_eq_false, List.contains_eq_mem, decide_eq_true_eq] at hd
        exact ⟨by simpa using hlen, hceil, distinctBindings_nodup hd.1, hd.2⟩
      · cases h
    · cases h
  · cases h

/-- The records of a load: none for a page treated as INVALID. -/
def loadRecords (x : PageNo × Option (List StoreRecord)) : List StoreRecord := x.2.getD []

/-- R160: the loads of the pages: each as `loadable_spec` has it, and no binding in two of them. -/
theorem loadPages_spec (pages : Vector Page 6) (ps : List PageNo) (loaded : List Binding) :
    (∀ x ∈ loadPages pages ps loaded,
        (loadRecords x).length ≤ 8 ∧ (∀ r ∈ loadRecords x, r.ceiling ≤ 16383) ∧ (bindingsOf (loadRecords x)).Nodup ∧
          ∀ b ∈ bindingsOf (loadRecords x), b ∉ loaded) ∧
      (loadPages pages ps loaded).Pairwise fun x y =>
        ∀ b, b ∈ bindingsOf (loadRecords x) → b ∉ bindingsOf (loadRecords y) := by
  induction ps generalizing loaded with
  | nil => exact ⟨by simp [loadPages], .nil⟩
  | cons p rest ih =>
    unfold loadPages
    split
    · next rs hrs =>
      obtain ⟨hlen, hceil, hn, hnew⟩ := loadable_spec hrs
      obtain ⟨each, apart⟩ := ih (loaded ++ bindingsOf rs)
      refine ⟨fun x hx => ?_, List.pairwise_cons.mpr ⟨fun y hy b hb hy' => ?_, apart⟩⟩
      · rcases List.mem_cons.mp hx with rfl | hx
        · exact ⟨by simp [loadRecords, hlen], hceil, hn, hnew⟩
        · obtain ⟨hl, hc, hnd, hb⟩ := each x hx
          exact ⟨hl, hc, hnd, fun b hm hm' => hb b hm (List.mem_append_left _ hm')⟩
      · exact (each y hy).2.2.2 b hy' (List.mem_append_right _ hb)
    · obtain ⟨each, apart⟩ := ih loaded
      refine ⟨fun x hx => ?_, List.pairwise_cons.mpr ⟨fun y _ b hb => ?_, apart⟩⟩
      · rcases List.mem_cons.mp hx with rfl | hx
        · simp [loadRecords, bindingsOf]
        · exact each x hx
      · simp [loadRecords, bindingsOf] at hb

/-- R160: a zone after the loads: a record of one of them, or the default. -/
theorem loadZones_zone (loads : List (PageNo × Option (List StoreRecord))) (z : Zone) :
    (∃ x ∈ loads, ∃ r, (z, r) ∈ (zonesOfPage x.1).zip (loadRecords x) ∧ tget (loadZones loads) z = loadedZone r) ∨
      tget (loadZones loads) z = ZoneRec.ofInvalidPage := by
  have start : ∀ v : Vector ZoneRec 48,
      (∃ x ∈ loads, ∃ r, (z, r) ∈ (zonesOfPage x.1).zip (loadRecords x) ∧
        tget (loads.foldl (fun zs x => ((zonesOfPage x.1).zip (x.2.getD [])).foldl
          (fun zs y => tset zs y.1 (loadedZone y.2)) zs) v) z = loadedZone r) ∨
      tget (loads.foldl (fun zs x => ((zonesOfPage x.1).zip (x.2.getD [])).foldl
          (fun zs y => tset zs y.1 (loadedZone y.2)) zs) v) z = tget v z := by
    induction loads with
    | nil => exact fun _ => .inr rfl
    | cons x rest ih =>
      intro v
      rw [List.foldl_cons]
      rcases ih (((zonesOfPage x.1).zip (x.2.getD [])).foldl (fun zs y => tset zs y.1 (loadedZone y.2)) v) with
        ⟨y, hy, r, hr, e⟩ | e
      · exact .inl ⟨y, List.mem_cons_of_mem _ hy, r, hr, e⟩
      · rw [e]
        rcases foldl_tmod_cases (fun r (_ : ZoneRec) => loadedZone r) ((zonesOfPage x.1).zip (x.2.getD [])) v z with
          ⟨r, _, hr, e'⟩ | ⟨_, e'⟩
        · exact .inl ⟨x, List.mem_cons_self, r, hr, e'⟩
        · exact .inr e'
  rcases start (Vector.replicate 48 ZoneRec.ofInvalidPage) with h | h
  · exact .inl h
  · exact .inr (h.trans (tget_replicate _ _))

theorem loadZones_limits (pages : Vector Page 6) (z : Zone) :
    (tget (loadZones (loadPages pages allPages [])) z).live ≤ (tget (loadZones (loadPages pages allPages [])) z).ceiling ∧
      (tget (loadZones (loadPages pages allPages [])) z).ceiling ≤ 16383 := by
  obtain ⟨each, _⟩ := loadPages_spec pages allPages []
  rcases loadZones_zone (loadPages pages allPages []) z with ⟨x, hx, r, hr, e⟩ | e
  · rw [e]
    exact ⟨Nat.le_refl _, (each x hx).2.1 r (List.of_mem_zip hr).2⟩
  · rw [e]
    exact ⟨Nat.le_refl 0, Nat.zero_le _⟩

theorem loadZones_bindings (pages : Vector Page 6) (y z : Zone) (b : Binding)
    (hy : (tget (loadZones (loadPages pages allPages [])) y).binding = some b)
    (hz : (tget (loadZones (loadPages pages allPages [])) z).binding = some b) : y = z := by
  obtain ⟨each, apart⟩ := loadPages_spec pages allPages []
  have sym : Std.Symm fun x y : PageNo × Option (List StoreRecord) =>
      ∀ b, b ∈ bindingsOf (loadRecords x) → b ∉ bindingsOf (loadRecords y) := ⟨fun _ _ h b hb hb' => h b hb' hb⟩
  have found : ∀ v, (tget (loadZones (loadPages pages allPages [])) v).binding = some b →
      ∃ x ∈ loadPages pages allPages [], ∃ r, (v, r) ∈ (zonesOfPage x.1).zip (loadRecords x) ∧ r.binding = some b := by
    intro v hv
    rcases loadZones_zone (loadPages pages allPages []) v with ⟨x, hx, r, hr, e⟩ | e
    · rw [e] at hv
      exact ⟨x, hx, r, hr, hv⟩
    · rw [e] at hv
      cases hv
  obtain ⟨x, hx, r, hr, br⟩ := found y hy
  obtain ⟨x', hx', r', hr', br'⟩ := found z hz
  have mem : ∀ {v r l} {zs : List Zone}, (v, r) ∈ zs.zip l → r.binding = some b → b ∈ bindingsOf l := fun hm hb =>
    List.mem_filterMap.mpr ⟨_, (List.of_mem_zip hm).2, hb⟩
  by_cases e : x = x'
  · subst e
    obtain ⟨hl, _, hn, _⟩ := each x hx
    exact congrArg Prod.fst (zip_binding_inj (by simpa [zonesOfPage] using hl) hn hr hr' br br')
  · exact absurd (mem hr' br') (apart.forall hx hx' e b (mem hr br))

end Sys2Proof.Machine

namespace Sys2Proof.Machine

/-! ### The bounds of the records -/

/-- What `Obligations.StepKeepsBounds` says of two states: each law of the records that holds in the first holds in the
second. -/
structure KeepsBounds (s t : State) : Prop where
  log : LogBounded s → LogBounded t
  queues : QueuesBounded s → QueuesBounded t
  quota : QuotaBounded s → QuotaBounded t
  limits : LimitsBounded s → LimitsBounded t
  settings : SettingsBounded s → SettingsBounded t
  bindings : BindingsDistinct s → BindingsDistinct t
  reasons : LogReasonsSound s → LogReasonsSound t

theorem KeepsBounds.refl (s : State) : KeepsBounds s s := ⟨id, id, id, id, id, id, id⟩

theorem KeepsBounds.trans {s t u : State} (h : KeepsBounds s t) (k : KeepsBounds t u) : KeepsBounds s u :=
  ⟨k.log ∘ h.log, k.queues ∘ h.queues, k.quota ∘ h.quota, k.limits ∘ h.limits, k.settings ∘ h.settings,
    k.bindings ∘ h.bindings, k.reasons ∘ h.reasons⟩

/-! ### What each law reads -/

theorem recordsAcceptable_congr {s t : State} (h : ∀ z, (t.zone z).binding = (s.zone z).binding) (p : PageNo)
    (os : List Byte) : recordsAcceptable t p os = recordsAcceptable s p os := by
  simp only [recordsAcceptable, otherBindings, h]

theorem bindingsDistinct_congr {s t : State} (hz : ∀ z, (t.zone z).binding = (s.zone z).binding)
    (ho : t.storeOp = s.storeOp) (h : BindingsDistinct s) : BindingsDistinct t := by
  refine ⟨fun y z b hy hb => h.1 y z b (by rw [← hz, hy]) (by rw [← hz, hb]), fun p records e => ?_⟩
  rw [recordsAcceptable_congr hz]
  exact h.2 p records (ho ▸ e)

theorem quotaSum_congr {s t : State} {sel : Tenant → Bool}
    (h : ∀ u, sel u = true → (t.tenant u).state = (s.tenant u).state ∧ (t.tenant u).quota = (s.tenant u).quota) :
    quotaSum sel t = quotaSum sel s := by
  have each : ∀ u, (if admitted t u && sel u then (t.tenant u).quota else 0) =
      if admitted s u && sel u then (s.tenant u).quota else 0 := fun u => by
    cases hu : sel u with
    | false => simp
    | true => rw [admitted, (h u hu).1, (h u hu).2, admitted]
  simp only [quotaSum, each]

/-- R3: the share of one tenant and those of the others. -/
theorem quotaSum_split (s : State) (t : Tenant) :
    quotaSum (fun _ => true) s = (if admitted s t then (s.tenant t).quota else 0) + quotaSum (fun u => u != t) s := by
  have sum : ∀ (f : Tenant → Nat) (t : Tenant), sumTenants f = f t + sumTenants fun u => if u != t then f u else 0 := by
    intro f t
    have all : ∀ v : Tenant, v = 0 ∨ v = 1 ∨ v = 2 ∨ v = 3 := by decide
    unfold sumTenants
    rcases all t with rfl | rfl | rfl | rfl <;> simp <;> omega
  unfold quotaSum
  rw [sum _ t]
  simp only [Bool.and_true]
  congr 2
  funext u
  cases admitted s u <;> simp

/-- R3: the quota bound where one tenant alone has changed, and its share still fits. -/
theorem quotaBounded_of_others {s x : State} {t : Tenant} (hx : ∀ u, u ≠ t → x.tenant u = s.tenant u)
    (hb : (if admitted x t then (x.tenant t).quota else 0) + quotaSum (fun u => u != t) s ≤ 32) : QuotaBounded x := by
  have same : quotaSum (fun u => u != t) x = quotaSum (fun u => u != t) s := quotaSum_congr fun u hu => by
    rw [hx u (by simpa using hu)]
    exact ⟨rfl, rfl⟩
  unfold QuotaBounded
  rw [quotaSum_split x t, same]
  exact hb

theorem settingsBounded_modTenant {s : State} {t : Tenant} {f : TenantRec → TenantRec}
    (hf : SpreadingBounded (s.tenant t).spreading → SpreadingBounded (f (s.tenant t)).spreading) (h : SettingsBounded s) :
    SettingsBounded (s.modTenant t f) := by
  obtain ⟨tick, step, census, poll, loss, recovery, alarm, wake, derate, spreading⟩ := h
  refine ⟨tick, step, census, poll, loss, recovery, alarm, wake, derate, fun u => ?_⟩
  by_cases e : t = u
  · subst e
    rw [State.tenant_modTenant_same]
    exact hf (spreading t)
  · rw [State.tenant_modTenant_ne _ _ _ _ e]
    exact spreading u

theorem quotaBounded_modTenant {s : State} {t : Tenant} {f : TenantRec → TenantRec}
    (hf : ∀ r, (f r).state = r.state ∧ (f r).quota = r.quota) (h : QuotaBounded s) : QuotaBounded (s.modTenant t f) := by
  refine (quotaSum_congr fun u _ => ?_).trans_le h
  by_cases e : t = u
  · subst e
    rw [State.tenant_modTenant_same]
    exact hf _
  · rw [State.tenant_modTenant_ne _ _ _ _ e]
    exact ⟨rfl, rfl⟩

theorem limitsBounded_modZone {s : State} {z : Zone} {f : ZoneRec → ZoneRec}
    (hf : ∀ r, ZoneLimits r → ZoneLimits (f r)) (h : LimitsBounded s) : LimitsBounded (s.modZone z f) := by
  intro y
  by_cases e : z = y
  · subst e
    rw [State.zone_modZone_same]
    exact hf _ (h z)
  · rw [State.zone_modZone_ne _ _ _ _ e]
    exact h y

theorem bindingsDistinct_modZone {s : State} {z : Zone} {f : ZoneRec → ZoneRec} (hf : ∀ r, (f r).binding = r.binding)
    (h : BindingsDistinct s) : BindingsDistinct (s.modZone z f) := by
  refine bindingsDistinct_congr (s := s) (fun y => ?_) rfl h
  by_cases e : z = y
  · subst e
    rw [State.zone_modZone_same, hf]
  · rw [State.zone_modZone_ne _ _ _ _ e]

theorem queuesBounded_modLink {s : State} {f : FPort} {g : LinkRec → LinkRec}
    (hg : (s.link f).queue.length ≤ 4 → (g (s.link f)).queue.length ≤ 4) (h : QueuesBounded s) :
    QueuesBounded (s.modLink f g) := by
  intro x
  by_cases e : f = x
  · subst e
    rw [State.link_modLink_same]
    exact hg (h f)
  · rw [State.link_modLink_ne _ _ _ _ e]
    exact h x

theorem logReasonsSound_modPort {s : State} {p : Port} {f : PortRec → PortRec} (hf : ∀ q, (f q).log = q.log)
    (h : LogReasonsSound s) : LogReasonsSound (s.modPort p f) := by
  intro q
  have reader : (s.modPort p f).reader q = s.reader q := by cases q <;> rfl
  rw [reader]
  by_cases e : p = q
  · subst e
    rw [State.port_modPort_same, hf]
    exact h p
  · rw [State.port_modPort_ne _ _ _ _ e]
    exact h q

/-! ### What each shared change keeps -/

theorem keepsBounds_modPort (s : State) (p : Port) {f : PortRec → PortRec} (hf : ∀ q, (f q).log = q.log) :
    KeepsBounds s (s.modPort p f) :=
  ⟨id, id, id, id, id, id, logReasonsSound_modPort hf⟩

theorem keepsBounds_modCell (s : State) (z : Zone) (t : Tenant) (f : Cell → Cell) : KeepsBounds s (s.modCell z t f) :=
  ⟨id, id, id, id, id, id, id⟩

/-- The laws of the records do not read the plan, the moves or the remotes. -/
theorem keepsBounds_plan {s t : State}
    (h : t = { s with cells := t.cells, moves := t.moves, admitPos := t.admitPos, rampTimer := t.rampTimer, remotes := t.remotes }) :
    KeepsBounds s t := by
  rw [h]
  exact ⟨id, id, id, id, id, id, id⟩

theorem queuesBounded_startQueued {s : State} (f : FPort) (h : QueuesBounded s) : QueuesBounded (startQueued f s) := by
  unfold startQueued
  dsimp only
  split
  · exact queuesBounded_modLink id h
  · exact h

theorem coalesce_length (l : LinkRec) (p : Pos) (limit : Nat) (mute : Bool) :
    (coalesce l p limit mute).length = l.queue.length := by
  unfold coalesce waitingFrames
  split
  · rw [List.length_append, List.length_map, List.length_take, List.length_drop]
    omega
  · simp

/-- R112: a SET joins a queue of fewer than 4 frames, or lengthens none. -/
theorem queuesBounded_queueSet {s : State} (z : Zone) (h : QueuesBounded s) : QueuesBounded (queueSet z s) := by
  unfold queueSet
  split
  · exact h
  · next b _ =>
    dsimp only
    split
    · exact queuesBounded_modLink (fun hl => (coalesce_length _ _ _ _).trans_le hl) h
    · split
      · next hl =>
        have joined : QueuesBounded (s.modLink b.port fun l =>
            { l with queue := l.queue ++ [.set b.pos (s.zone z).effLimit (muteOf s z)] }) :=
          queuesBounded_modLink (fun _ => by rw [List.length_append, List.length_singleton]; omega) h
        exact queuesBounded_startQueued b.port joined
      · exact h

theorem keepsBounds_queueSet (z : Zone) (s : State) : KeepsBounds s (queueSet z s) := by
  refine ⟨?_, queuesBounded_queueSet z, ?_, ?_, ?_, ?_, ?_⟩ <;> rw [queueSet_eq] <;> exact id

theorem keepsBounds_passResults (z : Zone) (s : State) : KeepsBounds s (passResults z s) :=
  ⟨id, id, id, limitsBounded_modZone (z := z) (f := fun r => { r with effLimit := effLimitOf s z }) fun _ => id, id,
    bindingsDistinct_modZone (z := z) (f := fun r => { r with effLimit := effLimitOf s z }) fun _ => rfl, id⟩

theorem keepsBounds_pass (z : Zone) (s : State) : KeepsBounds s (pass z s) := by
  rw [pass_eq]
  split
  · exact (keepsBounds_passResults z s).trans (keepsBounds_queueSet z _)
  · exact keepsBounds_passResults z s

theorem keepsBounds_setTarget (z : Zone) (t : Tenant) (d : Dest) (src : Origin) (s : State) :
    KeepsBounds s (setTarget z t d src s) := by
  unfold setTarget
  split
  · exact .refl s
  · split
    · dsimp only
      split
      · exact keepsBounds_modCell s z t _
      · exact (keepsBounds_modCell s z t _).trans (keepsBounds_pass z _)
    · split
      · exact .refl s
      · split
        · unfold retargetMove
          split <;> exact keepsBounds_plan rfl
        · exact keepsBounds_modCell s z t _

theorem keepsBounds_appendLog (e : Entry) (s : State) : KeepsBounds s (appendLog e s) := by
  refine ⟨logBounded_append e, ?_, ?_, ?_, ?_, ?_, fun _ => appendLog_reason e s⟩ <;> rw [appendLog_eq] <;> exact id

/-- R145 to R148: a reader's cursor set within the log, with its reason. -/
theorem keepsBounds_setReader {s : State} (p : Port) {n : Nat} (hn : LogBounded s → n ≤ s.log.length) :
    KeepsBounds s (evalLog p (s.setReader p ⟨n, 0⟩)) := by
  refine ⟨fun h => logBounded_setReader h p (hn h), ?_, ?_, ?_, ?_, ?_, fun h => logReasons_setReader h p _⟩ <;>
    rw [setReader_eq] <;> exact id

theorem keepsBounds_readLog {p : Port} {r : Reader} {s : State} (hr : s.reader p = some r) :
    KeepsBounds s (readLog p r s).2 := by
  obtain ⟨n, e, hn⟩ := readLog_eq p r s
  rw [e]
  exact keepsBounds_setReader p fun h => hn (h.2 p r hr).1

/-! ### What each change of its own keeps -/

/-- R52 to R54: completing moves changes homes and the Move Queue alone. -/
theorem foldl_completeMove_eq (l : List Move) (s : State) :
    l.foldl (fun s m => completeMove m s) s =
      { s with
        cells := (l.foldl (fun s m => completeMove m s) s).cells
        moves := (l.foldl (fun s m => completeMove m s) s).moves } := by
  induction l generalizing s with
  | nil => rfl
  | cons m rest ih =>
    have e : completeMove m s = { s with cells := (completeMove m s).cells, moves := (completeMove m s).moves } := by
      unfold completeMove
      dsimp only
      split <;> rfl
    rw [List.foldl_cons, ih, e]

theorem keepsBounds_rampMoves (s : State) : KeepsBounds s (rampMoves s) := by
  refine keepsBounds_plan ?_
  unfold rampMoves
  dsimp only
  rw [foldl_completeMove_eq]

theorem spreadingBounded_admission : SpreadingBounded Spreading.admission := by
  unfold SpreadingBounded
  decide

/-- R2: the record of a tenant just admitted, within the quota bound. -/
theorem keepsBounds_admittedRecord {s : State} {t : Tenant} {quota : Nat} (count : Nat) (lock : Vector Bool 6)
    (hv : admitted s t = false) (hq : quota + quotaSum (fun _ => true) s ≤ 32) :
    KeepsBounds s (s.modTenant t fun _ => admittedRecord quota count lock) := by
  refine ⟨id, id, fun _ => ?_, id, settingsBounded_modTenant fun _ => ?_, id, id⟩
  · refine quotaBounded_of_others (s := s) (t := t) (fun u hu => State.tenant_modTenant_ne s t u _ hu.symm) ?_
    have record : admitted (s.modTenant t fun _ => admittedRecord quota count lock) t = true := by
      rw [admitted, State.tenant_modTenant_same]
      rfl
    rw [quotaSum_split s t, hv] at hq
    rw [record, State.tenant_modTenant_same]
    simpa [admittedRecord] using hq
  · exact spreadingBounded_admission

theorem keepsBounds_admitRecord {s : State} {t : Tenant} {quota : Nat} (count : Nat) (hv : admitted s t = false)
    (hq : quota + quotaSum (fun _ => true) s ≤ 32) : KeepsBounds s (admitRecord t quota count s) := by
  have recorded := keepsBounds_admittedRecord count (tget s.carrierLock t) hv hq
  have darkened : KeepsBounds s ((s.modTenant t fun _ => admittedRecord quota count (tget s.carrierLock t)).modColumn t
      darkCell) := recorded.trans (keepsBounds_plan rfl)
  exact darkened.trans (keepsBounds_setReader _ fun _ => Nat.le_refl _)

theorem keepsBounds_quota {s : State} {t : Tenant} {share : Nat} (hq : share + quotaSum (fun u => u != t) s ≤ 32) :
    KeepsBounds s (s.modTenant t fun r => { r with quota := share }) := by
  refine ⟨id, id, fun _ => ?_, id, settingsBounded_modTenant id, id, id⟩
  refine quotaBounded_of_others (s := s) (t := t) (fun u hu => State.tenant_modTenant_ne s t u _ hu.symm) ?_
  rw [State.tenant_modTenant_same]
  split
  · exact hq
  · omega

/-- R4, R5: the states of the admitted tenants. -/
theorem keepsBounds_state {s : State} {t : Tenant} {x : TenantState} (ha : admitted s t = true) (hx : x ≠ .vacant) :
    KeepsBounds s (s.modTenant t fun r => { r with state := x }) := by
  refine ⟨id, id, fun h => ?_, id, settingsBounded_modTenant id, id, id⟩
  refine quotaBounded_of_others (s := s) (t := t) (fun u hu => State.tenant_modTenant_ne s t u _ hu.symm) ?_
  rw [QuotaBounded, quotaSum_split s t, ha] at h
  rw [State.tenant_modTenant_same]
  simpa [admitted, hx] using h

theorem keepsBounds_endFromOutside (p : Port) (s : State) : KeepsBounds s (endFromOutside p s) := by
  unfold endFromOutside
  split
  · exact .refl s
  · exact keepsBounds_modPort s p fun _ => rfl

theorem keepsBounds_suspension {s : State} {t : Tenant} (ha : isActive s t = true) :
    KeepsBounds s (endFromOutside (.tenant t) (suspendRecord t s)) := by
  have dropped : KeepsBounds s ((dropTenantMoves t s).modColumn t fun c => { c with target := c.home }) :=
    keepsBounds_plan rfl
  refine (dropped.trans (keepsBounds_state ?_ (by decide))).trans (keepsBounds_endFromOutside _ _)
  simp only [isActive, beq_iff_eq] at ha
  change admitted s t = true
  simp [admitted, ha]

/-- R6: the reader of a tenant goes, with its port's reason. -/
theorem keepsBounds_readerGone (s : State) (t : Tenant) :
    KeepsBounds s (retirePort t { s with tenantReaders := tset s.tenantReaders t none }) := by
  have reader : ∀ p, State.reader { s with tenantReaders := tset s.tenantReaders t none } p =
      if p = .tenant t then none else s.reader p := by
    intro p
    cases p with
    | venue => rfl
    | tenant u => simp [State.reader, tget_tset, eq_comm]
  have bounded : LogBounded s → LogBounded { s with tenantReaders := tset s.tenantReaders t none } := by
    refine fun h => ⟨h.1, fun p r hp => ?_⟩
    rw [reader] at hp
    split at hp
    · cases hp
    · exact h.2 p r hp
  have reasons : ∀ f : PortRec → PortRec, (∀ q, (f q).log = false) → LogReasonsSound s →
      LogReasonsSound ({ s with tenantReaders := tset s.tenantReaders t none }.modPort (.tenant t) f) := by
    intro f hf h p
    have e : ({ s with tenantReaders := tset s.tenantReaders t none }.modPort (.tenant t) f).reader p =
        if p = .tenant t then none else s.reader p := by
      rw [← reader]
      cases p <;> rfl
    rw [e]
    by_cases hp : p = .tenant t
    · subst hp
      rw [if_pos rfl, State.port_modPort_same, hf]
    · rw [if_neg hp, State.port_modPort_ne _ _ _ _ (Ne.symm hp)]
      exact h p
  unfold retirePort endFromOutside
  split
  · exact ⟨bounded, id, id, id, id, id, reasons _ fun _ => rfl⟩
  · rw [State.modPort_modPort]
    exact ⟨bounded, id, id, id, id, id, reasons _ fun _ => rfl⟩

theorem keepsBounds_retirement (s : State) (t : Tenant) : KeepsBounds s (retirePort t (retireRecord t s)) := by
  have darkened : KeepsBounds s ((dropTenantMoves t s).modColumn t darkCell) := keepsBounds_plan rfl
  have vacant : KeepsBounds s (((dropTenantMoves t s).modColumn t darkCell).modTenant t fun _ => TenantRec.vacant) := by
    refine darkened.trans ⟨id, id, fun h => ?_, id, settingsBounded_modTenant fun _ => ?_, id, id⟩
    · refine quotaBounded_of_others (s := (dropTenantMoves t s).modColumn t darkCell) (t := t)
        (fun u hu => State.tenant_modTenant_ne _ t u _ hu.symm) ?_
      have gone : admitted (((dropTenantMoves t s).modColumn t darkCell).modTenant t fun _ => TenantRec.vacant) t = false := by
        rw [admitted, State.tenant_modTenant_same]
        rfl
      rw [QuotaBounded, quotaSum_split _ t] at h
      rw [gone]
      exact le_trans (Nat.add_le_add_right (Nat.zero_le _) _) h
    · exact spreadingBounded_admission
  exact vacant.trans (keepsBounds_readerGone _ t)

/-! ### The store, resets and start-up -/

theorem keepsBounds_storeWrite {s : State} {p : PageNo} {records : Vector Byte 32}
    (ha : recordsAcceptable s p records.toList = true) :
    KeepsBounds s { s with storeOp := some (.write p records) } := by
  refine ⟨id, id, id, id, id, fun h => ⟨h.1, fun q os e => ?_⟩, id⟩
  cases e
  exact ha

theorem keepsBounds_storeOther {s : State} {op : Option StoreOp} (ho : ∀ p records, op ≠ some (.write p records)) :
    KeepsBounds s { s with storeOp := op } :=
  ⟨id, id, id, id, id, fun h => ⟨h.1, fun p os e => absurd e (ho p os)⟩, id⟩

/-- R154: the copies of a page write whose records were accepted. -/
theorem keepsBounds_copies {s : State} {p : PageNo} {records : Vector Byte 32}
    (ho : s.storeOp = some (.write p records)) :
    KeepsBounds s (copyRecords p ((recordsOf records.toList).getD []) { s with storeOp := none }) := by
  have ended : KeepsBounds s { s with storeOp := none } := keepsBounds_storeOther (by simp)
  have zones := copyRecords_eq p ((recordsOf records.toList).getD []) { s with storeOp := none }
  refine ⟨?_, ?_, ?_, fun h y => ?_, ?_, fun h => ⟨?_, ?_⟩, ?_⟩
  · rw [zones]
    exact id
  · rw [zones]
    exact id
  · rw [zones]
    exact id
  · rcases hr : recordsOf records.toList with _ | rs
    · exact h y
    · obtain ⟨hlen, hceil⟩ := recordsOf_spec _ hr
      rcases copyRecords_zone p (rs := rs) (by simpa using hlen) { s with storeOp := none } y with ⟨r, x, hm, e⟩ | ⟨_, e⟩
      · rw [Option.getD_some, e]
        exact ⟨Nat.min_le_right _ _, hceil r (List.of_mem_zip hm).2⟩
      · rw [Option.getD_some, e]
        exact h y
  · rw [zones]
    exact id
  · obtain ⟨rs, hrs, hlen, _, hn, hother⟩ := recordsAcceptable_spec (h.2 p records ho)
    rw [hrs]
    exact copyRecords_bindings hlen hn hother h.1
  · rw [zones]
    intro q os e
    cases e
  · rw [zones]
    exact id

theorem keepsBounds_beginStartUp (s : State) : KeepsBounds s (beginStartUp s) := by
  refine ⟨id, id, id, id, id, id, fun h p => ?_⟩
  have port : (beginStartUp s).port p = resetPort (s.port p) := tget_tmapIdx _ _ _
  rw [port]
  exact h p

theorem interruptStore_eq (s : State) :
    interruptStore s =
      { s with pages := (interruptStore s).pages, storeOp := none, freeCount := (interruptStore s).freeCount } := by
  unfold interruptStore
  split
  · next h => rw [← h]
  · rfl

/-- A log set anew, with every reason evaluated. -/
theorem keepsBounds_evalLogAll {s x : State}
    (h : x = { s with
      starting := x.starting
      ports := x.ports
      rampTimer := x.rampTimer
      censusTimer := x.censusTimer
      pollTimer := x.pollTimer
      log := x.log
      seconds := x.seconds
      venueReader := x.venueReader
      tenantReaders := x.tenantReaders })
    (hl : LogBounded x) : KeepsBounds s (evalLogAll x) := by
  have reader : ∀ p, (evalLogAll x).reader p = x.reader p := by
    rw [evalLogAll_eq]
    intro p
    cases p <;> rfl
  have log : (evalLogAll x).log = x.log := by rw [evalLogAll_eq]
  refine ⟨fun _ => ⟨log ▸ hl.1, fun p r hp => ?_⟩, ?_, ?_, ?_, ?_, ?_, fun _ p => ?_⟩
  · rw [log]
    exact hl.2 p r (reader p ▸ hp)
  · rw [evalLogAll_eq, h]
    exact id
  · rw [evalLogAll_eq, h]
    exact id
  · rw [evalLogAll_eq, h]
    exact id
  · rw [evalLogAll_eq, h]
    exact id
  · rw [evalLogAll_eq, h]
    exact id
  · exact (evalLogAll_reason p x).trans (logReasonOf_congr log (reader p)).symm

theorem keepsBounds_hardwareReset (s : State) : KeepsBounds s (hardwareReset s) := by
  have stopped : KeepsBounds s (interruptStore s) := by
    rw [interruptStore_eq]
    exact ⟨id, id, id, id, id, fun h => ⟨h.1, fun _ _ e => nomatch e⟩, id⟩
  refine stopped.trans (keepsBounds_evalLogAll rfl ⟨Nat.zero_le _, fun p r hp => ?_⟩)
  cases p with
  | venue =>
    cases hp
    exact ⟨Nat.zero_le _, Nat.zero_le _⟩
  | tenant t => simp [State.reader, beginStartUp] at hp

theorem startedPart_tenant (s : State) (t : Tenant) : (startedPart s).tenant t = TenantRec.vacant := tget_replicate _ _

theorem startedPart_port (s : State) (p : Port) : (startedPart s).port p = startedPort (s.port p) := tget_tmapIdx _ _ _

theorem settingsBounded_reset : SettingsBounded State.reset := by
  have spreading : ∀ t, (State.reset.tenant t).spreading = Spreading.admission := fun t =>
    congrArg TenantRec.spreading (tget_replicate _ t)
  refine ⟨by decide, by decide, by decide, by decide, by decide, by decide, by decide, by decide, by decide, fun t => ?_⟩
  rw [spreading]
  exact spreadingBounded_admission

/-- R161: the part at the end of start-up, but for its entries and the venue's reason. -/
theorem keepsBounds_startedPart (s : State) :
    (LogBounded s → LogBounded (startedPart s)) ∧ QueuesBounded (startedPart s) ∧ QuotaBounded (startedPart s) ∧
      LimitsBounded (startedPart s) ∧ SettingsBounded (startedPart s) ∧ BindingsDistinct (startedPart s) ∧
      ∀ t, ((startedPart s).port (.tenant t)).log = logReasonOf (startedPart s) (.tenant t) := by
  have noReader : ∀ t, (startedPart s).reader (.tenant t) = none := fun t => tget_replicate _ _
  have vacant : ∀ u, admitted (startedPart s) u = false := fun u => by
    rw [admitted, startedPart_tenant]
    rfl
  refine ⟨fun h => ⟨h.1, fun p r hp => ?_⟩, fun f => ?_, ?_, loadZones_limits s.pages, settingsBounded_reset,
    ⟨loadZones_bindings s.pages, fun _ _ e => nomatch e⟩, fun t => ?_⟩
  · cases p with
    | venue => exact h.2 .venue r hp
    | tenant t => exact absurd ((noReader t).symm.trans hp) (by simp)
  · have link : (startedPart s).link f = startedLink (s.link f) := tget_tmapIdx _ _ _
    rw [link]
    exact (by decide : 1 ≤ 4)
  · simp [QuotaBounded, quotaSum, sumTenants, vacant]
  · rw [startedPart_port, logReasonOf, noReader]
    rfl

/-- R148, R160: the entries of start-up, and then the venue's reason. -/
theorem keepsBounds_restarted {s x : State} (kept : KeepsBounds (startedPart s) x)
    (hx : ∀ t, (x.port (.tenant t)).log = logReasonOf x (.tenant t)) : KeepsBounds s (evalLog .venue x) := by
  obtain ⟨log, queues, quota, limits, settings, bindings, _⟩ := keepsBounds_startedPart s
  refine ⟨fun h => kept.log (log h), fun _ => kept.queues queues, fun _ => kept.quota quota, fun _ => kept.limits limits,
    fun _ => kept.settings settings, fun _ => kept.bindings bindings, fun _ p => ?_⟩
  refine (evalLog_reason .venue p _).trans ?_
  split
  · next e =>
    subst e
    rfl
  · next e =>
    cases p with
    | venue => exact absurd rfl e
    | tenant t => exact hx t

theorem keepsBounds_startUp (s : State) : KeepsBounds s (startUp s) := by
  unfold startUp
  split
  · exact .refl s
  · obtain ⟨_, _, _, _, _, _, reasons⟩ := keepsBounds_startedPart s
    have entered := foldl_kept (P := fun x => KeepsBounds (startedPart s) x ∧
        ∀ t, (x.port (.tenant t)).log = logReasonOf x (.tenant t))
      (f := fun x p => appendLog (Entry.pageInvalid x.seconds p) x)
      (fun x p hx => ⟨hx.1.trans (keepsBounds_appendLog _ x), fun t => appendLog_reason _ x (.tenant t)⟩)
      (invalidPages (loadPages s.pages allPages [])) ⟨.refl _, reasons⟩
    exact keepsBounds_restarted entered.1 entered.2

/-- R3, R9, R24, R112, R144, R148, R153: every change of which the events are made keeps the bounds of the records. -/
theorem keepsBounds_kept (s0 : State) : Kept (KeepsBounds s0) fun _ => True where
  active _ _ := trivial
  busy _ _ := trivial
  settings h hb k := k.trans (by
    rw [h] at hb ⊢
    exact ⟨id, id, id, id, hb, id, id⟩)
  port p f hf k := k.trans (keepsBounds_modPort _ p fun q => (hf q).2)
  cmd p c _ k := k.trans (keepsBounds_modPort _ p fun _ => rfl)
  append e k := k.trans (keepsBounds_appendLog e _)
  read p r hr k := k.trans (keepsBounds_readLog hr)
  results z k := k.trans (keepsBounds_passResults z _)
  queue z k := k.trans (keepsBounds_queueSet z _)
  admission k := k.trans (by
    rw [admitNext_eq]
    exact keepsBounds_plan rfl)
  slot _ _ k := k.trans (keepsBounds_plan rfl)
  target z d src _ k := k.trans (keepsBounds_setTarget z _ d src _)
  cells h _ k := k.trans (by
    rw [h]
    exact keepsBounds_plan rfl)
  tenant t f hf k := k.trans ⟨id, id, quotaBounded_modTenant fun r => ⟨(hf r).1, (hf r).2.1⟩, id,
    settingsBounded_modTenant (hf _).2.2, id, id⟩
  zone z f hf k := k.trans ⟨id, id, id, limitsBounded_modZone fun r => (hf r).2.2, id,
    bindingsDistinct_modZone fun r => (hf r).1, id⟩
  pin z k := k.trans ⟨id, id, id, limitsBounded_modZone (z := z) (f := fun r => { r with pinned := true }) fun _ => id, id,
    bindingsDistinct_modZone (z := z) (f := fun r => { r with pinned := true }) fun _ => rfl, id⟩
  link f g hg k := k.trans ⟨id, queuesBounded_modLink fun hl => hg.trans hl, id, id, id, id, id⟩
  remote z g _ k := k.trans (keepsBounds_plan rfl)
  leave z g _ k := k.trans (keepsBounds_plan rfl)
  ramp k := k.trans (keepsBounds_rampMoves _)
  newTenant t quota count hv hq k := k.trans (keepsBounds_admitRecord count hv hq)
  quota t share hq k := k.trans (keepsBounds_quota hq)
  suspension t ha k := k.trans (keepsBounds_suspension ha)
  resumption t hr k := k.trans (keepsBounds_state (by simp [admitted, hr]) (by decide))
  retirement t k := k.trans (keepsBounds_retirement _ t)
  storeWrite p records ha k := k.trans (keepsBounds_storeWrite ha)
  storeLock p k := k.trans (keepsBounds_storeOther (by simp))
  storeEnd k := k.trans (keepsBounds_storeOther (by simp))
  copies p records ho k := k.trans (keepsBounds_copies ho)
  resetBegins k := k.trans (keepsBounds_beginStartUp _)
  hardware k := k.trans (keepsBounds_hardwareReset _)
  restart k := k.trans (keepsBounds_startUp _)

/-- Settles O57: every change of which an event is made keeps each of the laws (`keepsBounds_kept`), so every step does. -/
theorem stepKeepsBounds : Obligations.StepKeepsBounds := by
  intro s t h
  have kept := (keepsBounds_kept s).on_step h (.refl s)
  exact ⟨kept.log, kept.queues, kept.quota, kept.limits, kept.settings, kept.bindings, kept.reasons⟩

end Sys2Proof.Machine

namespace Sys2Proof.Machine

/-! ### The plan -/

/-- R12, R42: what `PlanSound` says of one move. -/
structure MoveSound (s : State) (m : Move) : Prop where
  home : m.src = (s.cell m.zone m.tenant).home
  leaves : m.src ≠ m.dst
  active : (s.tenant m.tenant).state = .active
  waiting : m.state = .waiting → m.weight = 0 ∧ m.dir = .forward ∧ (s.zone m.zone).pinned = false
  ramping : m.state = .ramping → (s.zone m.zone).pinned = true →
    (s.cell m.zone m.tenant).target = if m.dir = .forward then m.dst else m.src

/-- The cell of a move. -/
def moveKey (m : Move) : Zone × Tenant := (m.zone, m.tenant)

/-- The laws of the plan in the form in which the changes keep them: one move to a cell (R44), the outage law (R16), and
the clauses of `PlanSound`, each of a cell's move told by the queue's members. -/
structure PlanLaws (s : State) : Prop where
  keys : (s.moves.map moveKey).Nodup
  settled : ∀ z, inService s z = false → ∀ t, (s.cell z t).home = (s.cell z t).target ∧ (s.cell z t).occupancy = 0
  still : ∀ m ∈ s.moves, inService s m.zone = true
  sound : ∀ m ∈ s.moves, MoveSound s m
  pinned : ∀ z t, (s.zone z).pinned = true → (s.cell z t).home = (s.cell z t).target ∨ (z, t) ∈ s.moves.map moveKey
  homes : ∀ t, (s.tenant t).state ≠ .active → ∀ z, (s.cell z t).target = (s.cell z t).home
  ports : ∀ t, (s.tenant t).state ≠ .active → Resting (s.port (.tenant t)).cmd

/-! ### The move of a cell -/

theorem moveAt_none {s : State} {z : Zone} {t : Tenant} : moveAt s z t = none ↔ (z, t) ∉ s.moves.map moveKey := by
  simp only [moveAt, List.find?_eq_none, Bool.and_eq_true, beq_iff_eq, not_and, List.mem_map, not_exists, moveKey,
    Prod.mk.injEq]

theorem moveAt_some {s : State} {z : Zone} {t : Tenant} {m : Move} (h : moveAt s z t = some m) :
    m ∈ s.moves ∧ m.zone = z ∧ m.tenant = t := by
  have hk := List.find?_some h
  simp only [Bool.and_eq_true, beq_iff_eq] at hk
  exact ⟨List.mem_of_find?_eq_some h, hk⟩

/-- With one move to a cell, a move of the queue is its cell's move. -/
theorem move_unique {l : List Move} (h : (l.map moveKey).Nodup) {m n : Move} (hm : m ∈ l) (hn : n ∈ l)
    (e : moveKey m = moveKey n) : m = n := List.inj_on_of_nodup_map h hm hn e

theorem moveAt_of_mem {s : State} (h : (s.moves.map moveKey).Nodup) {m : Move} (hm : m ∈ s.moves) :
    moveAt s m.zone m.tenant = some m := by
  rcases e : moveAt s m.zone m.tenant with _ | n
  · exact absurd (List.mem_map_of_mem hm) (moveAt_none.mp e)
  · obtain ⟨hn, hz, ht⟩ := moveAt_some e
    rw [move_unique h hn hm (by simp [moveKey, hz, ht])]

theorem pendingCell_iff {s : State} {z : Zone} {t : Tenant} :
    pendingCell s z t = true ↔ (s.cell z t).home ≠ (s.cell z t).target ∧ (z, t) ∉ s.moves.map moveKey := by
  simp only [pendingCell, Bool.and_eq_true, bne_iff_ne, Option.isNone_iff_eq_none, moveAt_none]

/-! ### The laws of the obligation -/

theorem planLaws_iff {s : State} :
    PlanLaws s ↔ (s.moves.map moveKey).Nodup ∧ OutageSettled s ∧ PlanSound s := by
  constructor
  · intro h
    refine ⟨h.keys, fun z hz t => ⟨(h.settled z hz t).1, (h.settled z hz t).2, moveAt_none.mpr fun hm => ?_⟩,
      fun m hm => ?_, fun z t hz => ?_, fun t ht => ⟨h.homes t ht, h.ports t ht⟩⟩
    · obtain ⟨m, hm, e⟩ := List.mem_map.mp hm
      rw [moveKey, Prod.mk.injEq] at e
      have := h.still m hm
      rw [e.1, hz] at this
      cases this
    · obtain ⟨home, leaves, active, waiting, ramping⟩ := h.sound m hm
      exact ⟨home, leaves, active, waiting, ramping⟩
    · rw [← Bool.not_eq_true, pendingCell_iff]
      rintro ⟨hne, hm⟩
      exact (h.pinned z t hz).elim hne hm
  · rintro ⟨keys, outage, sound, pinned, resting⟩
    refine ⟨keys, fun z hz t => ⟨(outage z hz t).1, (outage z hz t).2.1⟩, fun m hm => ?_, fun m hm => ?_, fun z t hz => ?_,
      fun t ht => (resting t ht).1, fun t ht => (resting t ht).2⟩
    · by_contra hs
      have none := (outage m.zone (by simpa using hs) m.tenant).2.2
      exact moveAt_none.mp none (List.mem_map_of_mem hm)
    · obtain ⟨home, leaves, active, waiting, ramping⟩ := sound m hm
      exact ⟨home, leaves, active, waiting, ramping⟩
    · have hp := pinned z t hz
      rw [← Bool.not_eq_true, pendingCell_iff] at hp
      by_cases e : (s.cell z t).home = (s.cell z t).target
      · exact .inl e
      · exact .inr (by simpa [e] using hp)

/-! ### Changes that the plan does not see -/

/-- The laws read the moves, the homes, targets and occupancies, the tenants' states, the pins, which zones are in service,
and the progress of the tenants' ports. -/
theorem PlanLaws.congr {s t : State} (h : PlanLaws s) (moves : t.moves = s.moves)
    (cells : ∀ z u, (t.cell z u).home = (s.cell z u).home ∧ (t.cell z u).target = (s.cell z u).target ∧
      ((t.cell z u).occupancy = (s.cell z u).occupancy ∨ inService s z = true))
    (tenants : ∀ u, (t.tenant u).state = (s.tenant u).state)
    (pinned : ∀ z, (t.zone z).pinned = true → (s.zone z).pinned = true)
    (service : ∀ z, inService t z = false → inService s z = false)
    (ports : ∀ u, (s.tenant u).state ≠ .active → Resting (s.port (.tenant u)).cmd → Resting (t.port (.tenant u)).cmd) :
    PlanLaws t := by
  refine ⟨moves ▸ h.keys, fun z hz u => ?_, fun m hm => ?_, fun m hm => ?_, fun z u hz => ?_, fun u hu z => ?_, fun u hu => ?_⟩
  · obtain ⟨home, target, occ⟩ := cells z u
    obtain ⟨e, o⟩ := h.settled z (service z hz) u
    rw [home, target]
    refine ⟨e, ?_⟩
    rcases occ with occ | hin
    · rw [occ, o]
    · rw [service z hz] at hin
      cases hin
  · by_contra hs
    have := h.still m (moves ▸ hm)
    rw [service m.zone (by simpa using hs)] at this
    cases this
  · obtain ⟨home, leaves, active, waiting, ramping⟩ := h.sound m (moves ▸ hm)
    obtain ⟨ch, ct, _⟩ := cells m.zone m.tenant
    refine ⟨ch ▸ home, leaves, (tenants _).trans active, fun hw => ?_, fun hr hz => ct.trans (ramping hr (pinned _ hz))⟩
    obtain ⟨w, d, p⟩ := waiting hw
    exact ⟨w, d, Bool.eq_false_iff.mpr fun e => by rw [pinned _ e] at p; cases p⟩
  · rw [(cells z u).1, (cells z u).2.1, moves]
    exact h.pinned z u (pinned z hz)
  · rw [(cells z u).1, (cells z u).2.1]
    exact h.homes u (tenants u ▸ hu) z
  · exact ports u (tenants u ▸ hu) (h.ports u (tenants u ▸ hu))

/-- Changes outside the plan: the fields that the laws read are the same but for the ports, whose progress is. -/
theorem PlanLaws.outside {s t : State} (h : PlanLaws s) (moves : t.moves = s.moves) (cells : t.cells = s.cells)
    (tenants : t.tenants = s.tenants) (zones : t.zones = s.zones) (remotes : t.remotes = s.remotes)
    (ports : ∀ u, (t.port (.tenant u)).cmd = (s.port (.tenant u)).cmd) : PlanLaws t := by
  refine h.congr moves (fun z u => ?_) (fun u => ?_) (fun z hz => ?_) (fun z hz => ?_) (fun u _ hr => (ports u).symm ▸ hr)
  · rw [State.cell, cells]
    exact ⟨rfl, rfl, .inl rfl⟩
  · rw [State.tenant, tenants, State.tenant]
  · rwa [State.zone, zones] at hz
  · rwa [inService, State.remote, remotes] at hz

theorem PlanLaws.outsideLog {s t : State} (h : PlanLaws s) (e : outsideLog t = outsideLog s) : PlanLaws t := by
  have port : ∀ x : State, ∀ p, ((Sys2Proof.Machine.outsideLog x).port p).cmd = (x.port p).cmd := fun x p => by
    simp [Sys2Proof.Machine.outsideLog, State.port]
  have moves := congrArg State.moves e
  have cells := congrArg State.cells e
  have tenants := congrArg State.tenants e
  have zones := congrArg State.zones e
  have remotes := congrArg State.remotes e
  exact h.outside moves cells tenants zones remotes fun u => by rw [← port t, e, port]

theorem PlanLaws.outsidePasses {s t : State} (h : PlanLaws s) (e : outsidePasses t = outsidePasses s) : PlanLaws t := by
  have cell : ∀ z u, (Sys2Proof.Machine.outsidePasses t).cell z u = (Sys2Proof.Machine.outsidePasses s).cell z u :=
    fun z u => by rw [e]
  have zone : ∀ z, (Sys2Proof.Machine.outsidePasses t).zone z = (Sys2Proof.Machine.outsidePasses s).zone z :=
    fun z => by rw [e]
  simp only [outsidePasses_cell, outsidePasses_zone, Cell.mk.injEq, ZoneRec.mk.injEq] at cell zone
  have ports := congrArg State.ports e
  have tenants := congrArg State.tenants e
  have moves := congrArg State.moves e
  refine h.congr moves (fun z u => ?_) (fun u => ?_) (fun z hz => ?_) (fun z hz => ?_) (fun u _ hr => ?_)
  · obtain ⟨home, target, _, _, _, occupancy, _⟩ := cell z u
    exact ⟨home, target, .inl occupancy⟩
  · exact congrArg (fun v => (tget v u).state) tenants
  · obtain ⟨_, _, _, _, pinned, _⟩ := zone z
    exact pinned ▸ hz
  · rwa [← inService_outside, e, inService_outside] at hz
  · exact (congrArg (fun v => (tget v (portIdx (.tenant u))).cmd) ports).symm ▸ hr

end Sys2Proof.Machine

namespace Sys2Proof.Machine

/-! ### Admission and ramp slots -/

/-- R45, R46: the cell that the arbiter chooses is pending. -/
theorem nextAdmission_pending {s : State} {t : Tenant} {z : Zone} (h : nextAdmission s = some (t, z)) :
    pendingCell s z t = true := by
  unfold nextAdmission at h
  split at h
  · obtain ⟨u, _, hu⟩ := List.exists_of_findSome?_eq_some h
    split at hu
    · obtain ⟨y, hy, e⟩ := Option.map_eq_some_iff.mp hu
      cases e
      exact List.find?_some (p := fun z => pendingCell s z t) hy
    · cases hu
  · cases h

theorem planLaws_admitNext {s : State} (h : PlanLaws s) : PlanLaws (admitNext s) := by
  rcases e : nextAdmission s with _ | ⟨t, z⟩
  · rw [admitNext_none e]
    exact h
  · obtain ⟨leaves, free⟩ := pendingCell_iff.mp (nextAdmission_pending e)
    have service : inService s z = true := by
      by_contra hs
      exact leaves (h.settled z (by simpa using hs) t).1
    have active : (s.tenant t).state = .active := by
      by_contra ha
      exact leaves (h.homes t ha z).symm
    have unpinned : (s.zone z).pinned = false := by
      by_contra hp
      exact (h.pinned z t (by simpa using hp)).elim leaves free
    have created : MoveSound s (newMove s z t) :=
      ⟨rfl, leaves, active, fun _ => ⟨rfl, rfl, unpinned⟩, fun hr => nomatch hr⟩
    rw [admitNext_some e]
    refine ⟨?_, h.settled, fun m hm => ?_, fun m hm => ?_, fun y u hy => ?_, h.homes, h.ports⟩
    · rw [List.map_append, List.map_singleton, List.nodup_append_comm, List.singleton_append, List.nodup_cons]
      exact ⟨free, h.keys⟩
    · rcases List.mem_append.mp hm with hm | hm
      · exact h.still m hm
      · rw [List.mem_singleton.mp hm]
        exact service
    · have sound : MoveSound s m := by
        rcases List.mem_append.mp hm with hm | hm
        · exact h.sound m hm
        · rw [List.mem_singleton.mp hm]
          exact created
      exact ⟨sound.home, sound.leaves, sound.active, sound.waiting, sound.ramping⟩
    · refine (h.pinned y u hy).imp id fun hm => ?_
      rw [List.map_append]
      exact List.mem_append_left _ hm

/-- The keys of the queue are those before, where a change of a move keeps its cell. -/
theorem keys_modMove {s : State} {z : Zone} {t : Tenant} {f : Move → Move}
    (hf : ∀ m ∈ s.moves, m.zone = z → m.tenant = t → moveKey (f m) = moveKey m) :
    (s.modMove z t f).moves.map moveKey = s.moves.map moveKey := by
  simp only [State.modMove, List.map_map]
  refine List.map_congr_left fun m hm => ?_
  simp only [Function.comp_apply]
  split
  · next e =>
    simp only [Bool.and_eq_true, beq_iff_eq] at e
    exact hf m hm e.1 e.2
  · rfl

/-- A move of the queue after the move of a cell has changed: another cell's, or the changed one. -/
theorem mem_modMove {s : State} {z : Zone} {t : Tenant} {f : Move → Move} {n : Move} (h : n ∈ (s.modMove z t f).moves) :
    (n ∈ s.moves ∧ (n.zone, n.tenant) ≠ (z, t)) ∨ ∃ m ∈ s.moves, m.zone = z ∧ m.tenant = t ∧ n = f m := by
  obtain ⟨m, hm, rfl⟩ := List.mem_map.mp h
  split
  · next e =>
    simp only [Bool.and_eq_true, beq_iff_eq] at e
    exact .inr ⟨m, hm, e.1, e.2, rfl⟩
  · next e => exact .inl ⟨hm, by simpa using e⟩

theorem planLaws_startRamping {s : State} {m : Move} (hm : m ∈ s.moves) (hw : m.state = .waiting) (h : PlanLaws s) :
    PlanLaws (startRamping m s) := by
  have keys : (startRamping m s).moves.map moveKey = s.moves.map moveKey := keys_modMove fun _ _ _ _ => rfl
  refine ⟨keys ▸ h.keys, h.settled, fun n hn => ?_, fun n hn => ?_, fun z t hz => keys ▸ h.pinned z t hz, h.homes, h.ports⟩
  · rcases mem_modMove hn with ⟨hn, _⟩ | ⟨x, hx, hz, _, rfl⟩
    · exact h.still n hn
    · exact h.still x hx
  · rcases mem_modMove hn with ⟨hn, _⟩ | ⟨x, hx, hz, ht, rfl⟩
    · have sound := h.sound n hn
      exact ⟨sound.home, sound.leaves, sound.active, sound.waiting, sound.ramping⟩
    · obtain rfl : x = m := move_unique h.keys hx hm (by simp [moveKey, hz, ht])
      obtain ⟨_, _, unpinned⟩ := (h.sound x hx).waiting hw
      exact ⟨(h.sound x hx).home, (h.sound x hx).leaves, (h.sound x hx).active, (fun e => nomatch e),
        fun _ hp => nomatch unpinned.symm.trans hp⟩

/-! ### Changes of target -/

theorem retargeted_some {m n : Move} {d : Dest} {src : Origin} (h : retargeted m d src = some n) :
    n.zone = m.zone ∧ n.tenant = m.tenant ∧ n.src = m.src ∧ n.state = m.state ∧ n.weight = m.weight ∧
      (n.dst = m.dst ∨ (n.dst = d ∧ d ≠ m.src)) ∧ (m.state = .waiting → n.dir = m.dir) := by
  unfold retargeted at h
  split at h
  · split at h
    · cases h
    · split at h
      · cases h
        exact ⟨rfl, rfl, rfl, rfl, rfl, .inl rfl, fun _ => rfl⟩
      · next hd _ =>
        cases h
        exact ⟨rfl, rfl, rfl, rfl, rfl, .inr ⟨rfl, hd⟩, fun _ => rfl⟩
  · next hr _ =>
    split at h <;> cases h <;> exact ⟨rfl, rfl, rfl, rfl, rfl, .inl rfl, fun e => nomatch hr.symm.trans e⟩
  · next hr _ =>
    split at h <;> cases h <;> exact ⟨rfl, rfl, rfl, rfl, rfl, .inl rfl, fun e => nomatch hr.symm.trans e⟩

/-- The laws where one cell, its tenant ACTIVE and its zone not pinned, has taken new values and its move has been
changed or dropped. -/
theorem PlanLaws.ofCell {s x : State} {z : Zone} {t : Tenant} {f : Cell → Cell} (h : PlanLaws s)
    (hx : x = { s.modCell z t f with moves := x.moves }) (ha : (s.tenant t).state = .active)
    (hz : (s.zone z).pinned = true → (f (s.cell z t)).home = (f (s.cell z t)).target ∧ (z, t) ∉ x.moves.map moveKey)
    (hs : inService s z = false → (f (s.cell z t)).home = (f (s.cell z t)).target ∧ (f (s.cell z t)).occupancy = 0)
    (keys : (x.moves.map moveKey).Nodup)
    (others : ∀ m, moveKey m ≠ (z, t) → (m ∈ x.moves ↔ m ∈ s.moves))
    (own : ∀ m ∈ x.moves, moveKey m = (z, t) → inService s z = true ∧ m.src = (f (s.cell z t)).home ∧ m.src ≠ m.dst ∧
      (m.state = .waiting → m.weight = 0 ∧ m.dir = .forward)) : PlanLaws x := by
  have cell : ∀ y u, x.cell y u = if z = y ∧ t = u then f (s.cell y u) else s.cell y u := fun y u => by
    rw [hx]
    exact State.cell_modCell s z y t u f
  have zone : ∀ y, x.zone y = s.zone y := fun y => by rw [hx]; rfl
  have tenant : ∀ u, x.tenant u = s.tenant u := fun u => by rw [hx]; rfl
  have service : ∀ y, inService x y = inService s y := fun y => by rw [hx]; rfl
  have port : ∀ p, x.port p = s.port p := fun p => by rw [hx]; rfl
  have other : ∀ {y u}, (y, u) ≠ (z, t) → x.cell y u = s.cell y u := fun hne => by
    rw [cell, if_neg fun e => hne (by rw [e.1, e.2])]
  have mine : x.cell z t = f (s.cell z t) := by rw [cell, if_pos ⟨rfl, rfl⟩]
  refine ⟨keys, fun y hy u => ?_, fun m hm => ?_, fun m hm => ?_, fun y u hy => ?_, fun u hu y => ?_, fun u hu => ?_⟩
  · rw [service] at hy
    by_cases e : (y, u) = (z, t)
    · cases e
      rw [mine]
      exact hs hy
    · rw [other e]
      exact h.settled y hy u
  · rw [service]
    by_cases e : moveKey m = (z, t)
    · rw [(Prod.mk.inj e).1]
      exact (own m hm e).1
    · exact h.still m ((others m e).mp hm)
  · by_cases e : moveKey m = (z, t)
    · obtain ⟨_, src, leaves, waiting⟩ := own m hm e
      have unpinned : (s.zone z).pinned = false := by
        by_contra hp
        exact (hz (by simpa using hp)).2 (e ▸ List.mem_map_of_mem hm)
      obtain ⟨ez, et⟩ := Prod.mk.inj e
      refine ⟨?_, leaves, ?_, fun hw => ?_, fun _ hp => ?_⟩
      · rw [ez, et, mine]
        exact src
      · rw [tenant, et]
        exact ha
      · rw [zone, ez]
        exact ⟨(waiting hw).1, (waiting hw).2, unpinned⟩
      · rw [zone, ez, unpinned] at hp
        cases hp
    · obtain ⟨home, leaves, active, waiting, ramping⟩ := h.sound m ((others m e).mp hm)
      refine ⟨?_, leaves, ?_, ?_, ?_⟩
      · rw [other e]
        exact home
      · rw [tenant]
        exact active
      · rw [zone]
        exact waiting
      · rw [zone, other e]
        exact ramping
  · rw [zone] at hy
    by_cases e : (y, u) = (z, t)
    · cases e
      rw [mine]
      exact .inl (hz hy).1
    · rw [other e]
      refine (h.pinned y u hy).imp id fun hm => ?_
      obtain ⟨m, hm, hk⟩ := List.mem_map.mp hm
      exact List.mem_map.mpr ⟨m, (others m (hk ▸ e)).mpr hm, hk⟩
  · rw [tenant] at hu
    have e : (y, u) ≠ (z, t) := fun e => hu (by rw [(Prod.mk.inj e).2]; exact ha)
    rw [other e]
    exact h.homes u hu y
  · rw [port]
    exact h.ports u (tenant u ▸ hu)

theorem planLaws_setTarget {s : State} {z : Zone} {t : Tenant} {d : Dest} {src : Origin}
    (ha : (s.tenant t).state = .active) (h : PlanLaws s) : PlanLaws (setTarget z t d src s) := by
  unfold setTarget
  split
  · exact h
  · next hp =>
    have unpinned : ∀ {q : Prop}, (s.zone z).pinned = true → q := fun e => absurd e hp
    split
    · next hs =>
      have out : inService s z = false := by simpa using hs
      have noMove : ∀ m ∈ s.moves, moveKey m ≠ (z, t) := fun m hm e => by
        have := h.still m hm
        rw [(Prod.mk.inj e).1] at this
        exact absurd (this.symm.trans out) (by simp)
      have set : PlanLaws (s.modCell z t fun c => { c with home := d, target := d, source := src }) :=
        h.ofCell rfl ha unpinned (fun _ => ⟨rfl, (h.settled z out t).2⟩) h.keys (fun _ _ => Iff.rfl)
          fun m hm e => absurd e (noMove m hm)
      dsimp only
      split
      · exact set
      · exact set.outsidePasses (outsidePasses_pass z _)
    · next hs =>
      have serving : inService s z = true := by simpa using hs
      have out : ∀ {q : Prop}, inService s z = false → q := fun e => absurd (serving.symm.trans e) (by simp)
      split
      · exact h
      · split
        · next m hm =>
          obtain ⟨mem, mz, mt⟩ := moveAt_some hm
          have sound := h.sound m mem
          have home : m.src = (s.cell z t).home := by rw [← mz, ← mt]; exact sound.home
          unfold retargetMove
          split
          · refine h.ofCell (z := z) (t := t) (f := fun c => { c with target := d, source := src }) rfl ha unpinned out
              (h.keys.sublist (List.filter_sublist.map _)) (fun n hn => ?_) fun n hn e => ?_
            · simp only [State.dropMove, State.modCell_moves, List.mem_filter, moveKey, ne_eq, Prod.mk.injEq] at hn ⊢
              simp only [Bool.not_eq_true', Bool.and_eq_false_iff, beq_eq_false_iff_ne, and_iff_left_iff_imp]
              exact fun _ => not_and_or.mp hn
            · simp only [State.dropMove, State.modCell_moves, List.mem_filter, moveKey, Prod.mk.injEq] at hn e
              simp [e] at hn
          · next m' hm' =>
            obtain ⟨kz, kt, ksrc, kstate, kweight, kdst, kdir⟩ := retargeted_some hm'
            have keys := keys_modMove (s := s.modCell z t fun c => { c with target := d, source := src }) (z := z) (t := t)
              (f := fun _ => m') fun n _ nz nt => by simp [moveKey, kz, kt, mz, mt, nz, nt]
            refine h.ofCell (z := z) (t := t) (f := fun c => { c with target := d, source := src }) rfl ha unpinned out
              (keys ▸ h.keys) (fun n hn => ?_) fun n hn e => ?_
            · constructor
              · intro hx
                rcases mem_modMove hx with ⟨hx, _⟩ | ⟨x, _, _, _, rfl⟩
                · exact hx
                · exact absurd (by simp [moveKey, kz, kt, mz, mt]) hn
              · intro hx
                exact List.mem_map.mpr ⟨n, hx, if_neg fun e => hn (by simpa [moveKey] using e)⟩
            · rcases mem_modMove hn with ⟨_, hne⟩ | ⟨x, _, _, _, rfl⟩
              · exact absurd e hne
              · refine ⟨serving, by rw [ksrc, home], ?_, fun hw => ?_⟩
                · rw [ksrc]
                  rcases kdst with kd | ⟨kd, hd⟩
                  · rw [kd]
                    exact sound.leaves
                  · rw [kd]
                    exact Ne.symm hd
                · rw [kstate] at hw
                  obtain ⟨weight, dir, _⟩ := sound.waiting hw
                  exact ⟨kweight.trans weight, (kdir hw).trans dir⟩
        · next hm =>
          refine h.ofCell (z := z) (t := t) (f := fun c => { c with target := d, source := src }) rfl ha unpinned out
            h.keys (fun _ _ => Iff.rfl) fun n hn e => ?_
          exact absurd (e ▸ List.mem_map_of_mem hn) (moveAt_none.mp hm)

end Sys2Proof.Machine

namespace Sys2Proof.Machine

/-! ### Completions -/

theorem planLaws_completeMove {s : State} {m : Move} (hm : m ∈ s.moves) (hr : m.state = .ramping) (h : PlanLaws s) :
    PlanLaws (completeMove m s) := by
  have sound := h.sound m hm
  have serving : ∀ {q : Prop}, inService s m.zone = false → q := fun e => absurd ((h.still m hm).symm.trans e) (by simp)
  have gone : (m.zone, m.tenant) ∉ (s.dropMove m.zone m.tenant).moves.map moveKey := fun e => by
    obtain ⟨n, hn, k⟩ := List.mem_map.mp e
    simp only [State.dropMove, List.mem_filter, moveKey, Prod.mk.injEq] at hn k
    simp [k] at hn
  have keys : ((s.dropMove m.zone m.tenant).moves.map moveKey).Nodup := h.keys.sublist (List.filter_sublist.map _)
  have others : ∀ n, moveKey n ≠ (m.zone, m.tenant) → (n ∈ (s.dropMove m.zone m.tenant).moves ↔ n ∈ s.moves) := by
    intro n hn
    simp only [State.dropMove, List.mem_filter, moveKey, ne_eq, Prod.mk.injEq] at hn ⊢
    simp only [Bool.not_eq_true', Bool.and_eq_false_iff, beq_eq_false_iff_ne, and_iff_left_iff_imp]
    exact fun _ => not_and_or.mp hn
  have own : ∀ {q : Prop} {n : Move}, n ∈ (s.dropMove m.zone m.tenant).moves → moveKey n = (m.zone, m.tenant) → q :=
    fun hn e => absurd (e ▸ List.mem_map_of_mem hn) gone
  unfold completeMove
  dsimp only
  split
  · next hd =>
    refine h.ofCell (f := fun c => { c with home := m.dst }) rfl sound.active (fun hp => ⟨?_, gone⟩) serving keys others
      fun n hn e => own hn e
    have := sound.ramping hr hp
    rw [if_pos hd] at this
    exact this.symm
  · next hd =>
    have same : s.dropMove m.zone m.tenant =
        { s.modCell m.zone m.tenant id with moves := (s.dropMove m.zone m.tenant).moves } := by
      simp [State.dropMove, State.modCell, tmod]
    refine h.ofCell (f := id) same sound.active (fun hp => ⟨?_, gone⟩) serving keys others
      fun n hn e => own hn e
    have := sound.ramping hr hp
    rw [if_neg hd, sound.home] at this
    exact this.symm

theorem mem_completeMove {s : State} {m n : Move} (hn : n ∈ s.moves) (hk : moveKey n ≠ moveKey m) :
    n ∈ (completeMove m s).moves := by
  have kept : n ∈ (s.dropMove m.zone m.tenant).moves := by
    simp only [moveKey, ne_eq, Prod.mk.injEq] at hk
    simp only [State.dropMove, List.mem_filter, Bool.not_eq_true', Bool.and_eq_false_iff, beq_eq_false_iff_ne]
    exact ⟨hn, not_and_or.mp hk⟩
  unfold completeMove
  dsimp only
  split <;> exact kept

/-- R53, R54: the completions of one expiry, each of a RAMPING move of the queue. -/
theorem planLaws_completions (l : List Move) {s : State} (hl : (l.map moveKey).Nodup)
    (hm : ∀ m ∈ l, m ∈ s.moves ∧ m.state = .ramping) (h : PlanLaws s) :
    PlanLaws (l.foldl (fun s m => completeMove m s) s) := by
  induction l generalizing s with
  | nil => exact h
  | cons m rest ih =>
    obtain ⟨first, rest_nodup⟩ := List.nodup_cons.mp hl
    obtain ⟨mem, hr⟩ := hm m List.mem_cons_self
    refine ih rest_nodup (fun n hn => ?_) (planLaws_completeMove mem hr h)
    obtain ⟨nmem, nr⟩ := hm n (List.mem_cons_of_mem _ hn)
    exact ⟨mem_completeMove nmem fun e => first (e ▸ List.mem_map_of_mem hn), nr⟩

/-- R52: an advance changes the weight of a RAMPING move alone. -/
theorem advanceMove_eq (step : Nat) (m : Move) :
    ∃ w, advanceMove step m = { m with weight := w } ∧ (m.state = .waiting → w = m.weight) := by
  unfold advanceMove
  split
  · exact ⟨m.weight, rfl, fun _ => rfl⟩
  · next hr _ => exact ⟨_, rfl, fun e => nomatch hr.symm.trans e⟩
  · next hr _ => exact ⟨_, rfl, fun e => nomatch hr.symm.trans e⟩

theorem planLaws_advance {s : State} (step : Nat) (timer : Timer) (h : PlanLaws s) :
    PlanLaws { s with moves := s.moves.map (advanceMove step), rampTimer := timer } := by
  have key : ∀ m, moveKey (advanceMove step m) = moveKey m := fun m => by
    obtain ⟨w, e, _⟩ := advanceMove_eq step m
    rw [e]
    rfl
  have keys : (s.moves.map (advanceMove step)).map moveKey = s.moves.map moveKey := by
    rw [List.map_map]
    exact List.map_congr_left fun m _ => key m
  refine ⟨keys ▸ h.keys, h.settled, fun m hm => ?_, fun m hm => ?_, fun z t hz => keys ▸ h.pinned z t hz, h.homes, h.ports⟩
  · obtain ⟨n, hn, rfl⟩ := List.mem_map.mp hm
    obtain ⟨w, e, _⟩ := advanceMove_eq step n
    rw [e]
    exact h.still n hn
  · obtain ⟨n, hn, rfl⟩ := List.mem_map.mp hm
    obtain ⟨w, e, hw⟩ := advanceMove_eq step n
    obtain ⟨home, leaves, active, waiting, ramping⟩ := h.sound n hn
    rw [e]
    refine ⟨home, leaves, active, fun hs => ?_, ramping⟩
    obtain ⟨weight, dir, unpinned⟩ := waiting hs
    exact ⟨(hw hs).trans weight, dir, unpinned⟩

theorem moveDone_ramping {m : Move} (h : moveDone m = true) : m.state = .ramping := by
  unfold moveDone at h
  split at h
  · cases h
  · assumption
  · assumption

theorem planLaws_rampMoves {s : State} (h : PlanLaws s) : PlanLaws (rampMoves s) := by
  have advanced := planLaws_advance s.rampStep ⟨true, s.rampTick⟩ h
  refine planLaws_completions _ (advanced.keys.sublist (List.filter_sublist.map _)) (fun m hm => ?_) advanced
  obtain ⟨mem, done⟩ := List.mem_filter.mp hm
  exact ⟨mem, moveDone_ramping done⟩

/-! ### Outage and pins -/

/-- R16: what the outage rule leaves of a cell. -/
theorem outage_cell (z : Zone) (s : State) (y : Zone) (u : Tenant) :
    (outage z s).cell y u =
      if z = y then { s.cell y u with home := (s.cell y u).target, occupancy := 0 } else s.cell y u := by
  have dropped : ∀ x : State, State.cell { x with moves := x.moves.filter fun m => !(m.zone == z) } y u = x.cell y u :=
    fun _ => rfl
  unfold outage
  simp only [State.cell_modZoneCells]
  split
  · rw [dropped, State.cell_modZoneCells, if_pos ‹_›]
    cases moveAt s z u <;> rfl
  · rw [dropped, State.cell_modZoneCells, if_neg ‹_›]

theorem outage_moves (z : Zone) (s : State) : (outage z s).moves = s.moves.filter fun m => !(m.zone == z) := rfl

/-- R16: a zone that leaves service, with the outage rule. -/
theorem planLaws_leave {s : State} {z : Zone} {g : RemoteRec → RemoteRec}
    (h : PlanLaws s) : PlanLaws (outage z (s.modRemote z g)) := by
  have cell : ∀ y u, (outage z (s.modRemote z g)).cell y u =
      if z = y then { s.cell y u with home := (s.cell y u).target, occupancy := 0 } else s.cell y u := fun y u =>
    outage_cell z _ y u
  have mem : ∀ {m}, m ∈ (outage z (s.modRemote z g)).moves → m ∈ s.moves ∧ z ≠ m.zone := fun hm => by
    rw [outage_moves] at hm
    have := List.mem_filter.mp hm
    exact ⟨this.1, fun e => by simp [e] at this⟩
  have service : ∀ y, z ≠ y → inService (outage z (s.modRemote z g)) y = inService s y := fun y hy =>
    congrArg (fun r : RemoteRec => match r.state with | .alive => true | .degraded => true | _ => false)
      (State.remote_modRemote_ne s z y g hy)
  refine ⟨h.keys.sublist (List.filter_sublist.map _), fun y hy u => ?_, fun m hm => ?_, fun m hm => ?_, fun y u hy => ?_,
    fun u hu y => ?_, h.ports⟩
  · rw [cell]
    split
    · exact ⟨rfl, rfl⟩
    · next e => exact h.settled y (service y e ▸ hy) u
  · obtain ⟨hm, hne⟩ := mem hm
    rw [service _ hne]
    exact h.still m hm
  · obtain ⟨hm, hne⟩ := mem hm
    obtain ⟨home, leaves, active, waiting, ramping⟩ := h.sound m hm
    refine ⟨?_, leaves, active, waiting, ?_⟩ <;> rw [cell, if_neg hne]
    · exact home
    · exact ramping
  · rw [cell]
    split
    · exact .inl rfl
    · next e =>
      refine (h.pinned y u hy).imp id fun hk => ?_
      obtain ⟨m, hm, k⟩ := List.mem_map.mp hk
      refine List.mem_map.mpr ⟨m, ?_, k⟩
      rw [outage_moves]
      exact List.mem_filter.mpr ⟨hm, by simpa [(Prod.mk.inj k).1] using Ne.symm e⟩
  · rw [cell]
    split
    · rfl
    · exact h.homes u hu y

theorem pinRecord_cell (z : Zone) (s : State) (y : Zone) (u : Tenant) :
    (pinRecord z s).cell y u =
      if z = y then { s.cell y u with target := pinnedTarget (moveAt s z u) (s.cell y u).home } else s.cell y u :=
  State.cell_modZoneCells s z y u _

/-- R12: a pin. -/
theorem planLaws_pinRecord {s : State} {z : Zone} (h : PlanLaws s) : PlanLaws (pinRecord z s) := by
  have cell := pinRecord_cell z s
  have moves : (pinRecord z s).moves = s.moves.filter fun m => !(m.zone == z && m.state == .waiting) := rfl
  have mem : ∀ {m}, m ∈ (pinRecord z s).moves → m ∈ s.moves ∧ (z = m.zone → m.state = .ramping) := fun {m} hm => by
    rw [moves] at hm
    obtain ⟨hm, hf⟩ := List.mem_filter.mp hm
    refine ⟨hm, fun e => ?_⟩
    cases hs : m.state with
    | waiting => simp [e, hs] at hf
    | ramping => rfl
  have zone : ∀ y, z ≠ y → (pinRecord z s).zone y = s.zone y := fun y hy => State.zone_modZone_ne _ z y _ hy
  refine ⟨h.keys.sublist (List.filter_sublist.map _), fun y hy u => ?_, fun m hm => h.still m (mem hm).1, fun m hm => ?_,
    fun y u hy => ?_, fun u hu y => ?_, h.ports⟩
  · obtain ⟨home, occ⟩ := h.settled y hy u
    rw [cell]
    split
    · next e =>
      subst e
      have free : moveAt s z u = none := moveAt_none.mpr fun hk => by
        obtain ⟨m, hm, k⟩ := List.mem_map.mp hk
        have := h.still m hm
        rw [(Prod.mk.inj k).1] at this
        exact absurd (this.symm.trans hy) (by simp)
      exact ⟨by simp [pinnedTarget, free], occ⟩
    · exact ⟨home, occ⟩
  · obtain ⟨hm, hz⟩ := mem hm
    obtain ⟨home, leaves, active, waiting, ramping⟩ := h.sound m hm
    by_cases e : z = m.zone
    · have hr := hz e
      refine ⟨?_, leaves, active, (fun hw => nomatch hr.symm.trans hw), fun _ _ => ?_⟩
      · rw [cell, if_pos e]
        exact home
      · rw [cell, if_pos e, e, moveAt_of_mem h.keys hm]
        simp [pinnedTarget, hr]
    · refine ⟨?_, leaves, active, ?_, ?_⟩
      · rw [cell, if_neg e]
        exact home
      · rw [zone _ e]
        exact waiting
      · rw [zone _ e, cell, if_neg e]
        exact ramping
  · rw [cell]
    by_cases e : z = y
    · subst e
      rw [if_pos rfl]
      rcases hm : moveAt s z u with _ | m
      · exact .inl rfl
      · obtain ⟨mem, mz, mt⟩ := moveAt_some hm
        cases hs : m.state with
        | waiting => exact .inl (by simp [pinnedTarget, hs])
        | ramping =>
          refine .inr (List.mem_map.mpr ⟨m, ?_, by simp [moveKey, mz, mt]⟩)
          rw [moves]
          exact List.mem_filter.mpr ⟨mem, by simp [hs]⟩
    · rw [if_neg e]
      rw [zone y e] at hy
      refine (h.pinned y u hy).imp id fun hk => ?_
      obtain ⟨m, hm, k⟩ := List.mem_map.mp hk
      refine List.mem_map.mpr ⟨m, ?_, k⟩
      rw [moves]
      exact List.mem_filter.mpr ⟨hm, by simp [(Prod.mk.inj k).1, Ne.symm e]⟩
  · rw [cell]
    split
    · next e =>
      subst e
      have free : moveAt s z u = none := moveAt_none.mpr fun hk => by
        obtain ⟨m, hm, k⟩ := List.mem_map.mp hk
        have active := (h.sound m hm).active
        rw [(Prod.mk.inj k).2] at active
        exact hu active
      simp [pinnedTarget, free]
    · exact h.homes u hu y

end Sys2Proof.Machine

namespace Sys2Proof.Machine

/-! ### Any record after a change of one -/

theorem State.port_modPort (s : State) (p q : Port) (f : PortRec → PortRec) :
    (s.modPort p f).port q = if p = q then f (s.port q) else s.port q := by
  split
  · next e => rw [e, State.port_modPort_same]
  · next e => rw [State.port_modPort_ne _ _ _ _ e]

theorem State.tenant_modTenant (s : State) (t u : Tenant) (f : TenantRec → TenantRec) :
    (s.modTenant t f).tenant u = if t = u then f (s.tenant u) else s.tenant u := tget_tmod _ _ _ _

theorem State.zone_modZone (s : State) (z y : Zone) (f : ZoneRec → ZoneRec) :
    (s.modZone z f).zone y = if z = y then f (s.zone y) else s.zone y := tget_tmod _ _ _ _

/-! ### Admission, suspension and retirement -/

/-- The laws where the column of a tenant has been settled, its moves dropped, and its record and port changed. -/
theorem PlanLaws.ofColumn {s x : State} {t : Tenant} {f : Cell → Cell} (h : PlanLaws s)
    (mem : ∀ m, m ∈ x.moves ↔ m ∈ s.moves ∧ m.tenant ≠ t) (keys : (x.moves.map moveKey).Nodup)
    (cells : x.cells = (s.modColumn t f).cells) (hf : ∀ c, (f c).home = (f c).target ∧ (f c).occupancy = c.occupancy)
    (zones : x.zones = s.zones) (remotes : x.remotes = s.remotes)
    (tenants : ∀ u, u ≠ t → (x.tenant u).state = (s.tenant u).state)
    (ports : ∀ u, u ≠ t → (x.port (.tenant u)).cmd = (s.port (.tenant u)).cmd)
    (own : (x.tenant t).state ≠ .active → Resting (x.port (.tenant t)).cmd) : PlanLaws x := by
  have service : ∀ z, inService x z = inService s z := fun z => by simp only [inService, State.remote, remotes]
  have zone : ∀ z, x.zone z = s.zone z := fun z => by rw [State.zone, zones, State.zone]
  have column : ∀ z, x.cell z t = f (s.cell z t) := fun z => by
    rw [State.cell, cells]
    exact (State.cell_modColumn s t z t f).trans (if_pos rfl)
  have other : ∀ z u, u ≠ t → x.cell z u = s.cell z u := fun z u hu => by
    rw [State.cell, cells]
    exact (State.cell_modColumn s t z u f).trans (if_neg hu.symm)
  refine ⟨keys, fun z hz u => ?_, fun m hm => ?_, fun m hm => ?_, fun z u hz => ?_, fun u hu z => ?_, fun u hu => ?_⟩
  · by_cases e : u = t
    · rw [e, column, (hf _).2]
      exact ⟨(hf _).1, (h.settled z (service z ▸ hz) t).2⟩
    · rw [other z u e]
      exact h.settled z (service z ▸ hz) u
  · rw [service]
    exact h.still m ((mem m).mp hm).1
  · obtain ⟨hm, e⟩ := (mem m).mp hm
    obtain ⟨home, leaves, active, waiting, ramping⟩ := h.sound m hm
    refine ⟨?_, leaves, (tenants _ e).trans active, ?_, ?_⟩
    · rw [other _ _ e]
      exact home
    · rw [zone]
      exact waiting
    · rw [zone, other _ _ e]
      exact ramping
  · by_cases e : u = t
    · rw [e, column]
      exact .inl (hf _).1
    · rw [other z u e]
      refine (h.pinned z u (zone z ▸ hz)).imp id fun hk => ?_
      obtain ⟨m, hm, k⟩ := List.mem_map.mp hk
      exact List.mem_map.mpr ⟨m, (mem m).mpr ⟨hm, fun hmt => e ((Prod.mk.inj k).2.symm.trans hmt)⟩, k⟩
  · by_cases e : u = t
    · rw [e, column]
      exact (hf _).1.symm
    · rw [other z u e]
      exact h.homes u (tenants u e ▸ hu) z
  · by_cases e : u = t
    · rw [e] at hu ⊢
      exact own hu
    · rw [ports u e]
      exact h.ports u (tenants u e ▸ hu)

theorem mem_dropTenantMoves {s : State} {t : Tenant} (m : Move) :
    m ∈ (dropTenantMoves t s).moves ↔ m ∈ s.moves ∧ m.tenant ≠ t := by
  simp [dropTenantMoves]

theorem keys_dropTenantMoves {s : State} {t : Tenant} (h : PlanLaws s) :
    ((dropTenantMoves t s).moves.map moveKey).Nodup := h.keys.sublist (List.filter_sublist.map _)

/-- R173: what a command that is ended from outside changes: its port. -/
theorem endFromOutside_eq (p : Port) (s : State) :
    endFromOutside p s = { s with ports := (endFromOutside p s).ports } := by
  unfold endFromOutside
  split <;> rfl

theorem endFromOutside_cmd (p q : Port) (s : State) :
    ((endFromOutside p s).port q).cmd = if p = q then .idle else (s.port q).cmd := by
  unfold endFromOutside
  by_cases e : p = q
  · subst e
    rw [if_pos rfl]
    split
    · assumption
    · rw [State.port_modPort_same]
  · rw [if_neg e]
    split
    · rfl
    · rw [State.port_modPort_ne _ _ _ _ e]

theorem retirePort_cmd (t : Tenant) (q : Port) (s : State) :
    ((retirePort t s).port q).cmd = if .tenant t = q then .idle else (s.port q).cmd := by
  rw [← endFromOutside_cmd]
  unfold retirePort
  rw [State.port_modPort]
  split <;> rfl

/-- R3: a tenant that is admitted was not ACTIVE, so it had no move. -/
theorem planLaws_admitRecord {s : State} {t : Tenant} {quota count : Nat} (hv : admitted s t = false) (h : PlanLaws s) :
    PlanLaws (admitRecord t quota count s) := by
  have eq : admitRecord t quota count s =
      { (s.modTenant t fun _ => admittedRecord quota count (tget s.carrierLock t)).modColumn t darkCell with
        venueReader := (admitRecord t quota count s).venueReader
        tenantReaders := (admitRecord t quota count s).tenantReaders
        ports := (admitRecord t quota count s).ports } := by
    unfold admitRecord
    dsimp only
    rw [evalLog_eq, setReader_eq]
  have cmd : ∀ p, ((admitRecord t quota count s).port p).cmd = (s.port p).cmd := fun p => by
    unfold admitRecord
    dsimp only
    rw [evalLog_cmd, setReader_eq]
    rfl
  refine h.ofColumn (t := t) (f := darkCell) (fun m => ?_) (by rw [eq]; exact h.keys) (by rw [eq]; rfl)
    (fun c => ⟨rfl, rfl⟩) (by rw [eq]; rfl) (by rw [eq]; rfl) (fun u hu => ?_) (fun u _ => cmd _) (fun ha => ?_)
  · rw [eq]
    refine ⟨fun hm => ⟨hm, fun e => ?_⟩, fun hm => hm.1⟩
    have active := (h.sound m hm).active
    rw [e] at active
    simp [admitted, active] at hv
  · rw [eq]
    exact congrArg TenantRec.state (State.tenant_modTenant_ne s t u _ hu.symm)
  · rw [eq] at ha
    exact absurd (congrArg TenantRec.state (State.tenant_modTenant_same s t _)) ha

theorem planLaws_suspension {s : State} {t : Tenant} (h : PlanLaws s) :
    PlanLaws (endFromOutside (.tenant t) (suspendRecord t s)) := by
  have eq := endFromOutside_eq (.tenant t) (suspendRecord t s)
  refine h.ofColumn (t := t) (f := fun c => { c with target := c.home }) (fun m => ?_) ?_ (by rw [eq]; rfl)
    (fun c => ⟨rfl, rfl⟩) (by rw [eq]; rfl) (by rw [eq]; rfl) (fun u hu => ?_) (fun u hu => ?_) (fun _ => ?_)
  · rw [eq]
    exact mem_dropTenantMoves m
  · rw [eq]
    exact keys_dropTenantMoves h
  · rw [eq]
    exact congrArg TenantRec.state (State.tenant_modTenant_ne s t u _ hu.symm)
  · rw [endFromOutside_cmd, if_neg (by simpa using hu.symm)]
    rfl
  · rw [endFromOutside_cmd, if_pos rfl]
    exact .inl rfl

theorem planLaws_retirement {s : State} {t : Tenant} (h : PlanLaws s) : PlanLaws (retirePort t (retireRecord t s)) := by
  have eq : retirePort t (retireRecord t s) =
      { retireRecord t s with ports := (retirePort t (retireRecord t s)).ports } := by
    unfold retirePort
    rw [endFromOutside_eq]
    rfl
  refine h.ofColumn (t := t) (f := darkCell) (fun m => ?_) ?_ (by rw [eq]; rfl)
    (fun c => ⟨rfl, rfl⟩) (by rw [eq]; rfl) (by rw [eq]; rfl) (fun u hu => ?_) (fun u hu => ?_) (fun _ => ?_)
  · rw [eq]
    exact mem_dropTenantMoves m
  · rw [eq]
    exact keys_dropTenantMoves h
  · rw [eq]
    exact congrArg TenantRec.state (State.tenant_modTenant_ne s t u _ hu.symm)
  · rw [retirePort_cmd, if_neg (by simpa using hu.symm)]
    rfl
  · rw [retirePort_cmd, if_pos rfl]
    exact .inl rfl

/-! ### Records of tenants, zones and remotes -/

theorem PlanLaws.ofTenants {s t : State} (h : PlanLaws s) (e : t = { s with tenants := t.tenants })
    (tenants : ∀ u, (t.tenant u).state = (s.tenant u).state) : PlanLaws t := by
  refine h.congr (by rw [e]) (fun z u => ?_) tenants (fun z hz => ?_) (fun z hz => ?_) (fun u _ hr => ?_) <;> rw [e] at *
  · exact ⟨rfl, rfl, .inl rfl⟩
  · exact hz
  · exact hz
  · exact hr

theorem planLaws_modTenant {s : State} {t : Tenant} {f : TenantRec → TenantRec} (hf : ∀ r, (f r).state = r.state)
    (h : PlanLaws s) : PlanLaws (s.modTenant t f) := by
  refine h.ofTenants rfl fun u => ?_
  rw [State.tenant_modTenant]
  split
  · exact hf _
  · rfl

theorem planLaws_modPort {s : State} {p : Port} {f : PortRec → PortRec}
    (hf : ∀ t, p = .tenant t → (s.tenant t).state ≠ .active → Resting (s.port p).cmd → Resting (f (s.port p)).cmd)
    (h : PlanLaws s) : PlanLaws (s.modPort p f) := by
  refine h.congr rfl (fun _ _ => ⟨rfl, rfl, .inl rfl⟩) (fun _ => rfl) (fun _ => id) (fun _ => id) fun u hu hr => ?_
  rw [State.port_modPort]
  split
  · next e =>
    subst e
    exact hf u rfl hu hr
  · exact hr

/-- A tenant that becomes ACTIVE. -/
theorem planLaws_resumption {s : State} {t : Tenant} (h : PlanLaws s) :
    PlanLaws (s.modTenant t fun r => { r with state := .active }) := by
  have was : ∀ u, ((s.modTenant t fun r => { r with state := .active }).tenant u).state ≠ .active →
      (s.tenant u).state ≠ .active := fun u hu => by
    rw [State.tenant_modTenant] at hu
    split at hu
    · exact absurd rfl hu
    · exact hu
  refine ⟨h.keys, h.settled, h.still, fun m hm => ?_, h.pinned, fun u hu => h.homes u (was u hu),
    fun u hu => h.ports u (was u hu)⟩
  obtain ⟨home, leaves, active, waiting, ramping⟩ := h.sound m hm
  refine ⟨home, leaves, ?_, waiting, ramping⟩
  by_contra hn
  exact was _ hn active

theorem planLaws_modZone {s : State} {z : Zone} {f : ZoneRec → ZoneRec}
    (hf : (f (s.zone z)).pinned = true → (s.zone z).pinned = true) (h : PlanLaws s) : PlanLaws (s.modZone z f) := by
  refine h.congr rfl (fun _ _ => ⟨rfl, rfl, .inl rfl⟩) (fun _ => rfl) (fun y hy => ?_) (fun _ => id) (fun _ _ => id)
  rw [State.zone_modZone] at hy
  split at hy
  · next e => exact e ▸ hf (e ▸ hy)
  · exact hy

theorem planLaws_modRemote {s : State} {z : Zone} {g : RemoteRec → RemoteRec}
    (hg : inService (s.modRemote z g) z = false → inService s z = false) (h : PlanLaws s) :
    PlanLaws (s.modRemote z g) := by
  refine h.congr rfl (fun _ _ => ⟨rfl, rfl, .inl rfl⟩) (fun _ => rfl) (fun _ => id) (fun y hy => ?_) (fun _ _ => id)
  by_cases e : z = y
  · exact e ▸ hg (e ▸ hy)
  · rwa [inService, State.remote_modRemote_ne _ _ _ _ e] at hy

/-! ### The log, the store, resets and start-up -/

theorem planLaws_readLog {s : State} (p : Port) (r : Reader) (h : PlanLaws s) : PlanLaws (readLog p r s).2 := by
  obtain ⟨n, e, _⟩ := readLog_eq p r s
  rw [e]
  have set : PlanLaws (s.setReader p ⟨n, 0⟩) := by
    rw [setReader_eq]
    exact h.outside rfl rfl rfl rfl rfl fun _ => rfl
  exact set.outsideLog (outsideLog_evalLog p _)

theorem planLaws_copyRecords {s : State} (p : PageNo) (rs : List StoreRecord) (h : PlanLaws s) :
    PlanLaws (copyRecords p rs s) :=
  foldl_kept (fun _ _ hx => planLaws_modZone id hx) _ h

theorem planLaws_beginStartUp {s : State} (h : PlanLaws s) : PlanLaws (beginStartUp s) := by
  refine h.congr rfl (fun _ _ => ⟨rfl, rfl, .inl rfl⟩) (fun _ => rfl) (fun _ => id) (fun _ => id) fun u _ _ => ?_
  have port : (beginStartUp s).port (.tenant u) = resetPort (s.port (.tenant u)) := tget_tmapIdx _ _ _
  rw [port]
  exact .inl rfl

theorem planLaws_hardwareReset {s : State} (h : PlanLaws s) : PlanLaws (hardwareReset s) := by
  have stopped : PlanLaws (interruptStore s) := by
    rw [interruptStore_eq]
    exact h.outside rfl rfl rfl rfl rfl fun _ => rfl
  have emptied : PlanLaws { interruptStore s with
      log := [], seconds := 0, venueReader := ⟨0, 0⟩, tenantReaders := Vector.replicate 4 none } :=
    stopped.outside rfl rfl rfl rfl rfl fun _ => rfl
  exact (planLaws_beginStartUp emptied).outsideLog (outsideLog_evalLogAll _)

/-- R1, R161: where every cell is DARK and idle, every port idle and no move exists. -/
theorem PlanLaws.ofDark {s : State} (moves : s.moves = []) (cells : ∀ z t, s.cell z t = Cell.dark)
    (ports : ∀ t, (s.port (.tenant t)).cmd = .idle) : PlanLaws s := by
  refine ⟨by simp [moves], fun z _ t => ?_, by simp [moves], by simp [moves], fun z t _ => ?_, fun t _ z => ?_,
    fun t _ => .inl (ports t)⟩ <;> rw [cells]
  · exact ⟨rfl, rfl⟩
  · exact .inl rfl
  · rfl

theorem cell_reset (z : Zone) (t : Tenant) : State.reset.cell z t = Cell.dark :=
  (congrArg (fun row => tget row t) (tget_replicate _ z)).trans (tget_replicate _ t)

theorem planLaws_startUp {s : State} (h : PlanLaws s) : PlanLaws (startUp s) := by
  have started : PlanLaws (startedPart s) := .ofDark rfl cell_reset fun t => by
    rw [startedPart_port]
    rfl
  unfold startUp
  split
  · exact h
  · have entered := foldl_kept (P := PlanLaws) (f := fun s p => appendLog (Entry.pageInvalid s.seconds p) s)
      (fun x _ hx => hx.outsideLog (outsideLog_appendLog _ x)) (invalidPages (loadPages s.pages allPages [])) started
    exact entered.outsideLog (outsideLog_evalLog .venue _)

/-! ### Every step -/

/-- R12, R16, R42, R44: every change of which the events are made keeps the laws of the plan. -/
theorem planLaws_kept : Kept PlanLaws fun r => r.state = .active where
  active _ := id
  busy h hb := by
    by_contra ha
    exact hb (h.ports _ ha)
  settings e _ h := by
    rw [e]
    exact h.outside rfl rfl rfl rfl rfl fun _ => rfl
  port p f hf h := planLaws_modPort (fun _ _ _ hr => (hf _).1.symm ▸ hr) h
  cmd p c hc h := planLaws_modPort (fun t e ha _ => (hc t e).resolve_right ha) h
  append e h := h.outsideLog (outsideLog_appendLog e _)
  read p r _ h := planLaws_readLog p r h
  results z h := h.outsidePasses (outsidePasses_passResults z _)
  queue z h := h.outsidePasses (outsidePasses_queueSet z _)
  admission := planLaws_admitNext
  slot := planLaws_startRamping
  target _ _ _ := planLaws_setTarget
  cells e hc h := by
    refine h.congr (by rw [e]) hc (fun u => by rw [e]; rfl) (fun z hz => ?_) (fun z hz => ?_) (fun u _ hr => ?_)
    · rw [e] at hz
      exact hz
    · rw [e] at hz
      exact hz
    · rw [e]
      exact hr
  tenant _ _ hf h := planLaws_modTenant (fun r => (hf r).1) h
  zone _ _ hf h := planLaws_modZone (hf _).2.1 h
  pin _ := planLaws_pinRecord
  link _ _ _ h := h.outside rfl rfl rfl rfl rfl fun _ => rfl
  remote _ _ := planLaws_modRemote
  leave _ _ _ := planLaws_leave
  ramp := planLaws_rampMoves
  newTenant _ _ _ hv _ := planLaws_admitRecord hv
  quota _ _ _ := planLaws_modTenant fun _ => rfl
  suspension _ _ := planLaws_suspension
  resumption _ _ := planLaws_resumption
  retirement _ := planLaws_retirement
  storeWrite _ _ _ h := h.outside rfl rfl rfl rfl rfl fun _ => rfl
  storeLock _ h := h.outside rfl rfl rfl rfl rfl fun _ => rfl
  storeEnd h := h.outside rfl rfl rfl rfl rfl fun _ => rfl
  copies p records _ h := planLaws_copyRecords _ _ (h.outside rfl rfl rfl rfl rfl fun _ => rfl)
  resetBegins := planLaws_beginStartUp
  hardware := planLaws_hardwareReset
  restart := planLaws_startUp

/-- Settles O59: the laws of the plan (`PlanLaws`) are those of the obligation (`planLaws_iff`), and every change of which
an event is made keeps them (`planLaws_kept`). -/
theorem stepKeepsPlan : Obligations.StepKeepsPlan := by
  intro s t queue settled sound hstep
  obtain ⟨_, _, _, keys, _⟩ := queue
  have laws : PlanLaws s := planLaws_iff.mpr ⟨keys, settled, sound⟩
  exact (planLaws_iff.mp (planLaws_kept.on_step hstep laws)).2

end Sys2Proof.Machine

namespace Sys2Proof.Machine

/-! ### A whole command on a port that admits it -/

/-- R165: the venue's commands and the shared ones are not refused on port V. -/
theorem exec_venue {s : State} (h : Ready s .venue) {c : Command} {os : List Byte} (hf : isFixed c = true)
    (hk : commandKind c ≠ .tenant) (hn : os.length = paramCount true c) :
    exec (commandRow c .venue (Burst.whole os)) s =
      .next (completeVenue c os (afterFixed .venue c os.length .incomplete s)) :=
  exec_fixed h hf (if_neg hk) hn

/-- R165: the commands of a tenant are not refused on the port of an ACTIVE one. -/
theorem exec_tenant {s : State} {t : Tenant} (h : Ready s (.tenant t)) (ha : (s.tenant t).state = .active) {c : Command}
    {os : List Byte} (hf : isFixed c = true) (hk : commandKind c = .tenant) (hn : os.length = paramCount false c) :
    exec (commandRow c (.tenant t) (Burst.whole os)) s =
      .next (completeTenant t c os (afterFixed (.tenant t) c os.length .incomplete s)) := by
  refine exec_fixed h hf ?_ hn
  simp [refusalOf, hk, isActive, ha]

/-- An element of a streamed write, sent whole. -/
theorem exec_streaming {s : State} {p : Port} {w : WriteTo} {row : Port → Clocked → Instr} {os : List Byte}
    (h : Streaming s p w) (hrow : row ∈ elementRows) (hl : os.length = writeSize w) :
    exec (row p (Clocked.whole os)) s = .next (applyElement p w os (afterElement p os.length s)) := by
  rw [exec_elementRow hrow, clockElement_streaming h os hl]

theorem clampResult_decide (q : Prop) [Decidable q] : clampResult (decide q) = if q then .clamped else .ok := by
  simp [clampResult]

/-! ### Passes under a condition -/

/-- The passes of a change, where there is one. -/
theorem passed_ite {q : Prop} [Decidable q] {sel : Zone → Prop} {s t : State} (h : Passed sel s t) :
    Passed (fun z => ¬ q ∧ sel z) s (if q then s else t) := by
  split
  · next hq => exact passed_congr (passed_refl s) (by simp [hq])
  · next hq => exact passed_congr h (by simp [hq])

/-- The result that a command leaves replaces the one that its code left. -/
theorem passed_afterFixed {sel : Zone → Prop} {s v : State} {p : Port} {c : Command} {n : Nat} {r : Result}
    (f : State → State) (h : Passed sel (f (afterFixed p c n .incomplete s)) v)
    (hf : setResult p r (f (afterFixed p c n .incomplete s)) = f (setResult p r (afterFixed p c n .incomplete s))) :
    Passed sel (f (afterFixed p c n r s)) (setResult p r v) := by
  rw [← setResult_afterFixed p c n r .incomplete s, ← hf]
  exact h.setResult p r

/-- A command that does no more than leave a result. -/
theorem exec_result {i : Instr} {s x : State} {p : Port} {c : Command} {n : Nat} {r : Result}
    (run : exec i s = .next x) (e : x = setResult p r (afterFixed p c n .incomplete s)) : exec i s = .next (afterFixed p c n r s) := by
  rw [run, e, setResult_afterFixed]

/-! ### Tenants: quota, admission and resumption -/

theorem admitted_iff {s : State} {t : Tenant} : admitted s t = true ↔ (s.tenant t).state ≠ .vacant := by simp [admitted]

theorem setQuota_noTenant {a share : Byte} (h : 3 < a.toNat) (s : State) :
    setQuota a share s = setResult .venue .range s := by
  simp only [setQuota, tenantOf_none h]

theorem setQuota_vacant {a share : Byte} {t : Tenant} {s : State} (h : a.toNat = t.val)
    (hv : (s.tenant t).state = .vacant) : setQuota a share s = setResult .venue .state s := by
  simp [setQuota, tenantOf_some h, admitted, hv]

theorem setQuota_range {a share : Byte} {t : Tenant} {s : State} (h : a.toNat = t.val)
    (hv : (s.tenant t).state ≠ .vacant) (hq : 32 < share.toNat + quotaSum (fun u => u != t) s) :
    setQuota a share s = setResult .venue .range s := by
  simp [setQuota, tenantOf_some h, admitted, hv, hq]

theorem setQuota_accepted {a share : Byte} {t : Tenant} {s : State} (h : a.toNat = t.val)
    (hv : (s.tenant t).state ≠ .vacant) (hq : share.toNat + quotaSum (fun u => u != t) s ≤ 32) :
    setQuota a share s = setResult .venue .ok
      (if (s.tenant t).quota = share.toNat then s.modTenant t fun r => { r with quota := share.toNat }
        else passAll (s.modTenant t fun r => { r with quota := share.toNat })) := by
  have hr : ¬ (32 < share.toNat ∨ 32 < share.toNat + quotaSum (fun u => u != t) s) := by omega
  simp [setQuota, tenantOf_some h, admitted, hv, hr]

theorem admitTenant_noTenant {a quota count : Byte} (h : 3 < a.toNat) (s : State) :
    admitTenant a quota count s = setResult .venue .range s := by
  simp only [admitTenant, tenantOf_none h]

theorem admitTenant_admitted {a quota count : Byte} {t : Tenant} {s : State} (h : a.toNat = t.val)
    (hv : (s.tenant t).state ≠ .vacant) : admitTenant a quota count s = setResult .venue .state s := by
  simp [admitTenant, tenantOf_some h, admitted, hv]

theorem admitTenant_range {a quota count : Byte} {t : Tenant} {s : State} (h : a.toNat = t.val)
    (hv : (s.tenant t).state = .vacant)
    (hr : count.toNat < 1 ∨ 6 < count.toNat ∨ 32 < quota.toNat + quotaSum (fun _ => true) s) :
    admitTenant a quota count s = setResult .venue .range s := by
  simp only [admitTenant, tenantOf_some h, admitted, hv]
  split
  · next ha => cases ha
  · split
    · rfl
    · rw [if_pos (by omega)]

theorem admitTenant_accepted {a quota count : Byte} {t : Tenant} {s : State} (h : a.toNat = t.val)
    (hv : (s.tenant t).state = .vacant) (h1 : 1 ≤ count.toNat) (h6 : count.toNat ≤ 6)
    (hq : quota.toNat + quotaSum (fun _ => true) s ≤ 32) :
    admitTenant a quota count s =
      setResult .venue .ok (passAll (admitRecord t quota.toNat count.toNat s)) := by
  have hc : ¬ (count.toNat < 1 ∨ 6 < count.toNat) := by omega
  have hr : ¬ (32 < quota.toNat ∨ 32 < quota.toNat + quotaSum (fun _ => true) s) := by omega
  simp only [admitTenant, tenantOf_some h, admitted, hv, if_neg hc, if_neg hr]
  rfl

/-- R2, R145: a reader at "after newest" with nothing lost has no LOG reason. -/
theorem admitRecord_eq (t : Tenant) (quota count : Nat) (s : State) :
    admitRecord t quota count s =
      { s.modPort (.tenant t) fun q => { q with log := false } with
        tenants := tset s.tenants t (admittedRecord quota count (tget s.carrierLock t))
        cells := (s.modColumn t darkCell).cells
        tenantReaders := tset s.tenantReaders t (some ⟨s.log.length, 0⟩) } := by
  have none_unread : ∀ x : State, x.log = s.log → x.reader (.tenant t) = some ⟨s.log.length, 0⟩ →
      logReasonOf x (.tenant t) = false := fun x hl hr => by
    simp [logReasonOf, hr, hl]
  unfold admitRecord evalLog
  dsimp only
  rw [none_unread]
  · rfl
  · rfl
  · rw [reader_setReader, if_pos rfl]
    rfl

theorem resumeTenant_noTenant {a : Byte} (h : 3 < a.toNat) (s : State) :
    resumeTenant a s = setResult .venue .range s := by
  simp only [resumeTenant, tenantOf_none h]

theorem resumeTenant_notSuspended {a : Byte} {t : Tenant} {s : State} (h : a.toNat = t.val)
    (hs : (s.tenant t).state ≠ .suspended) : resumeTenant a s = setResult .venue .state s := by
  simp only [resumeTenant, tenantOf_some h, if_pos hs]

theorem resumeTenant_accepted {a : Byte} {t : Tenant} {s : State} (h : a.toNat = t.val)
    (hs : (s.tenant t).state = .suspended) :
    resumeTenant a s = setResult .venue .ok (passAll (s.modTenant t fun r => { r with state := .active })) := by
  simp only [resumeTenant, tenantOf_some h, hs, ne_eq, not_true_eq_false, if_false]

theorem suspendTenant_noTenant {a : Byte} (h : 3 < a.toNat) (s : State) :
    suspendTenant a s = setResult .venue .range s := by
  simp only [suspendTenant, tenantOf_none h]

theorem suspendTenant_notActive {a : Byte} {t : Tenant} {s : State} (h : a.toNat = t.val)
    (hs : (s.tenant t).state ≠ .active) : suspendTenant a s = setResult .venue .state s := by
  simp [suspendTenant, tenantOf_some h, isActive, hs]

/-- R4: a port's change commutes with passes, so the passes of a suspension may come last. -/
theorem suspendTenant_accepted {a : Byte} {t : Tenant} {s : State} (h : a.toNat = t.val)
    (hs : (s.tenant t).state = .active) :
    suspendTenant a s =
      finish s (setResult .venue .ok (passAll (endFromOutside (.tenant t) (suspendRecord t s)))) := by
  simp [suspendTenant, tenantOf_some h, isActive, hs, endFromOutside_passAll]

theorem retireTenant_noTenant {a : Byte} (h : 3 < a.toNat) (s : State) :
    retireTenant a s = setResult .venue .range s := by
  simp only [retireTenant, tenantOf_none h]

theorem retireTenant_vacant {a : Byte} {t : Tenant} {s : State} (h : a.toNat = t.val)
    (hv : (s.tenant t).state = .vacant) : retireTenant a s = setResult .venue .state s := by
  simp [retireTenant, tenantOf_some h, admitted, hv]

theorem retireTenant_accepted {a : Byte} {t : Tenant} {s : State} (h : a.toNat = t.val)
    (hv : (s.tenant t).state ≠ .vacant) :
    retireTenant a s = finish s (setResult .venue .ok (passAll (retirePort t (retireRecord t s)))) := by
  simp [retireTenant, tenantOf_some h, admitted, hv, retirePort_passAll]

/-- R173: an IDLE port is left as it is. -/
theorem endFromOutside_modPort (p : Port) (s : State) :
    endFromOutside p s =
      s.modPort p fun q => if q.cmd = .idle then q else { q with cmd := .idle, result := .state } := by
  unfold endFromOutside
  split
  · next h => exact (State.modPort_eq s p (fun q => if q.cmd = .idle then q else _) (if_pos h)).symm
  · next h => exact State.modPort_congr s p (by rw [if_neg h])

theorem retirePort_modPort (t : Tenant) (s : State) :
    retirePort t s = s.modPort (.tenant t) fun q =>
      { q with
        cmd := .idle
        result := if q.cmd = .idle then q.result else .state
        first := 0
        last := 47
        pointer := 0
        log := false
        movesIdle := false } := by
  unfold retirePort
  rw [endFromOutside_modPort, State.modPort_modPort]
  refine State.modPort_congr s _ ?_
  by_cases h : (s.port (.tenant t)).cmd = .idle
  · simp [h]
  · simp [h]

/-- A result of the venue's port, and another port's record. -/
theorem setResult_modPort_tenant (r : Result) (t : Tenant) (f : PortRec → PortRec) (s : State) :
    setResult .venue r (s.modPort (.tenant t) f) = (setResult .venue r s).modPort (.tenant t) f :=
  State.modPort_comm s (by simp) _ _

end Sys2Proof.Machine

namespace Sys2Proof.Machine.Settled

/-- Settles O15: the refusals of `setQuota`, and its passes. -/
theorem setQuota : Obligations.SetQuota := by
  intro s a share h
  have run : exec (.setQuota .venue (Burst.whole [a, share])) s =
      .next (Machine.setQuota a share (afterFixed .venue .setQuota 2 .incomplete s)) :=
    exec_venue h (c := .setQuota) rfl (by decide) rfl
  refine ⟨fun ha => exec_result run (setQuota_noTenant ha _), fun t ht => ⟨fun hv => exec_result run (setQuota_vacant ht hv),
    fun hv hq => exec_result run (setQuota_range ht hv hq), fun hv hq => ⟨_, run, ?_⟩⟩⟩
  rw [setQuota_accepted (s := afterFixed .venue .setQuota 2 .incomplete s) ht hv hq]
  refine passed_afterFixed (fun x => x.modTenant t fun r => { r with quota := share.toNat }) ?_ rfl
  exact passed_congr (passed_ite (passAll_passed _)) fun z => and_iff_left trivial

end Sys2Proof.Machine.Settled

namespace Sys2Proof.Machine

/-! ### Levels and presence -/

theorem usesSector_iff {s : State} {t : Tenant} {k : Sector} {z : Zone} :
    usesSector s t k z = true ↔ (s.cell z t).home = .sector k ∨
      ∃ m, moveAt s z t = some m ∧ m.state = .ramping ∧ (m.src = .sector k ∨ m.dst = .sector k) := by
  unfold usesSector
  cases moveAt s z t <;> simp

theorem setLevel_noSector {a hi lo : Byte} {t : Tenant} {s : State} (h : (s.tenant t).sectorCount ≤ a.toNat) :
    setLevel t a hi lo s = setResult (.tenant t) .range s := by
  simp only [setLevel, sectorOf_none (.inl h)]

theorem setLevel_sector {a hi lo : Byte} {t : Tenant} {k : Sector} {s : State} (h : a.toNat = k.val)
    (hk : k.val < (s.tenant t).sectorCount) :
    setLevel t a hi lo s =
      setResult (.tenant t) (if 4095 < be16 hi lo then .clamped else .ok) (storeLevel t k (min (be16 hi lo) 4095) s) := by
  simp only [setLevel, sectorOf_some h hk, clampResult_decide, clampLevel]

/-- R7: the passes of a changed level. -/
theorem storeLevel_passed (t : Tenant) (k : Sector) (v : Nat) (s : State) :
    Passed (fun z => tget (s.tenant t).levels k ≠ v ∧ usesSector s t k z = true)
      (s.modTenant t fun r => { r with levels := tset r.levels k v }) (storeLevel t k v s) :=
  passed_ite (passes_passed _ _)

/-- R8: the passes of a changed presence entry: the entry of the log leaves the cells and moves that they are chosen by. -/
theorem setPresence_passed (t : Tenant) (k : Sector) (lock : Bool) (s : State) :
    Passed (fun z => usesSector s t k z = true)
      (appendLog
        { kind := if lock then .carrierBack else .carrierLost
          time := s.seconds
          vis := .tenant t
          tenant := some t
          sector := some k }
        (s.modTenant t fun r => { r with presence := tset r.presence k lock }))
      (setPresence t k lock s) := by
  refine passed_congr (passes_passed _ _) fun z => ?_
  have kept : ∀ e x, usesSector (appendLog e x) t k z = usesSector x t k z := fun e x => by
    rw [appendLog_eq]
    rfl
  exact iff_of_eq (congrArg (· = true) (kept _ _))

theorem carrierEvent_ignored {t : Tenant} {k : Sector} {lock : Bool} {s : State}
    (h : ¬ (s.starting = false ∧ (s.tenant t).state ≠ .vacant ∧ k.val < (s.tenant t).sectorCount ∧
      tget (s.tenant t).presence k ≠ lock)) :
    carrierEvent t k lock s = { s with carrierLock := tmod s.carrierLock t fun row => tset row k lock } := by
  refine if_neg fun e => h ?_
  simp only [Bool.and_eq_true, Bool.not_eq_true', admitted_iff, decide_eq_true_eq, bne_iff_ne] at e
  obtain ⟨⟨⟨starting, state⟩, below⟩, differs⟩ := e
  exact ⟨starting, state, below, differs⟩

theorem carrierEvent_counts {t : Tenant} {k : Sector} {lock : Bool} {s : State}
    (h : s.starting = false ∧ (s.tenant t).state ≠ .vacant ∧ k.val < (s.tenant t).sectorCount ∧
      tget (s.tenant t).presence k ≠ lock) :
    carrierEvent t k lock s =
      setPresence t k lock { s with carrierLock := tmod s.carrierLock t fun row => tset row k lock } := by
  obtain ⟨starting, state, below, differs⟩ := h
  refine if_pos ?_
  simp only [Bool.and_eq_true, Bool.not_eq_true', admitted_iff, decide_eq_true_eq, bne_iff_ne]
  exact ⟨⟨⟨starting, state⟩, below⟩, differs⟩

/-! ### The result of the venue's port commutes with another port's record -/

theorem setResult_admitRecord (r : Result) (t : Tenant) (quota count : Nat) (s : State) :
    setResult .venue r (admitRecord t quota count s) = admitRecord t quota count (setResult .venue r s) := by
  rw [admitRecord_eq, admitRecord_eq, ← setResult_modPort_tenant]
  rfl

theorem setResult_endFromOutside (r : Result) (t : Tenant) (s : State) :
    setResult .venue r (endFromOutside (.tenant t) s) = endFromOutside (.tenant t) (setResult .venue r s) := by
  rw [endFromOutside_modPort, endFromOutside_modPort, setResult_modPort_tenant]

theorem setResult_retirePort (r : Result) (t : Tenant) (s : State) :
    setResult .venue r (retirePort t s) = retirePort t (setResult .venue r s) := by
  rw [retirePort_modPort, retirePort_modPort, setResult_modPort_tenant]

end Sys2Proof.Machine

namespace Sys2Proof.Machine.Settled

/-- Settles O14: the refusals of `admitTenant`, and the passes after the records of the new tenant. -/
theorem admitTenant : Obligations.AdmitTenant := by
  intro s a quota count h
  have run : exec (.admitTenant .venue (Burst.whole [a, quota, count])) s =
      .next (Machine.admitTenant a quota count (afterFixed .venue .admitTenant 3 .incomplete s)) :=
    exec_venue h (c := .admitTenant) rfl (by decide) rfl
  refine ⟨fun ha => exec_result run (admitTenant_noTenant ha _), fun t ht =>
    ⟨fun hv => exec_result run (admitTenant_admitted ht hv), fun hv hr => exec_result run (admitTenant_range ht hv hr),
      fun hv h1 h6 hq => ⟨_, run, ?_⟩⟩⟩
  rw [admitTenant_accepted (s := afterFixed .venue .admitTenant 3 .incomplete s) ht hv h1 h6 hq]
  have passed := passed_afterFixed (r := .ok) (admitRecord t quota.toNat count.toNat) (passAll_passed _)
    (setResult_admitRecord .ok t quota.toNat count.toNat (afterFixed .venue .admitTenant 3 .incomplete s))
  exact Eq.subst (motive := fun x => Passed _ x _) (admitRecord_eq _ _ _ _) passed

/-- Settles O16: the refusals of the two commands; the passes of a suspension and its close; the passes of a resumption. -/
theorem suspendAndResume : Obligations.SuspendAndResume := by
  intro s a h
  have suspend : exec (.suspendTenant .venue (Burst.whole [a])) s =
      .next (suspendTenant a (afterFixed .venue .suspendTenant 1 .incomplete s)) :=
    exec_venue h (c := .suspendTenant) rfl (by decide) rfl
  have resume : exec (.resumeTenant .venue (Burst.whole [a])) s =
      .next (resumeTenant a (afterFixed .venue .resumeTenant 1 .incomplete s)) :=
    exec_venue h (c := .resumeTenant) rfl (by decide) rfl
  refine ⟨fun ha => ⟨exec_result suspend (suspendTenant_noTenant ha _), exec_result resume (resumeTenant_noTenant ha _)⟩,
    fun t ht => ⟨fun hs => exec_result suspend (suspendTenant_notActive ht hs),
      fun hs => exec_result resume (resumeTenant_notSuspended ht hs), fun hs => ?_,
      fun hs => ⟨_, resume, ?_⟩⟩⟩
  · have closed := suspend.trans (congrArg _ (suspendTenant_accepted ht hs))
    have passed := passed_afterFixed (r := .ok) (fun x => endFromOutside (.tenant t) (suspendRecord t x)) (passAll_passed _)
      (setResult_endFromOutside .ok t (suspendRecord t (afterFixed .venue .suspendTenant 1 .incomplete s)))
    exact ⟨_, _, closed, finish_closed s _ _ fun _ => rfl,
      Eq.subst (motive := fun x => Passed _ x _) (endFromOutside_modPort _ _) passed⟩
  · rw [resumeTenant_accepted (s := afterFixed .venue .resumeTenant 1 .incomplete s) ht hs]
    exact passed_afterFixed (fun x => x.modTenant t fun r => { r with state := .active }) (passAll_passed _) rfl

/-- Settles O17: the refusals of `retireTenant`, its passes and its close. -/
theorem retireTenant : Obligations.RetireTenant := by
  intro s a h
  have run : exec (.retireTenant .venue (Burst.whole [a])) s =
      .next (Machine.retireTenant a (afterFixed .venue .retireTenant 1 .incomplete s)) :=
    exec_venue h (c := .retireTenant) rfl (by decide) rfl
  refine ⟨fun ha => exec_result run (retireTenant_noTenant ha _), fun t ht =>
    ⟨fun hv => exec_result run (retireTenant_vacant ht hv), fun hv => ?_⟩⟩
  have closed := run.trans (congrArg _ (retireTenant_accepted ht hv))
  have passed := passed_afterFixed (r := .ok) (fun x => retirePort t (retireRecord t x)) (passAll_passed _)
    (setResult_retirePort .ok t (retireRecord t (afterFixed .venue .retireTenant 1 .incomplete s)))
  exact ⟨_, _, closed, finish_closed s _ _ fun _ => rfl,
    Eq.subst (motive := fun x => Passed _ x _) (retirePort_modPort _ _) passed⟩

/-- Settles O18: the refusal of `setLevel`, and the passes of a changed level. -/
theorem setLevel : Obligations.SetLevel := by
  intro s t a hi lo h ha
  have run : exec (.setLevel (.tenant t) (Burst.whole [a, hi, lo])) s =
      .next (Machine.setLevel t a hi lo (afterFixed (.tenant t) .setLevel 3 .incomplete s)) :=
    exec_tenant h ha (c := .setLevel) rfl rfl rfl
  refine ⟨fun hk => exec_result run (setLevel_noSector hk), fun k hk hc => ⟨_, run, ?_⟩⟩
  rw [setLevel_sector (s := afterFixed (.tenant t) .setLevel 3 .incomplete s) hk hc]
  refine passed_afterFixed (fun x => x.modTenant t fun r => { r with levels := tset r.levels k (min (be16 hi lo) 4095) })
    ?_ rfl
  exact passed_congr (storeLevel_passed t k _ _) fun z => and_congr_right fun _ => usesSector_iff

/-- Settles O19: what `carrierEvent` does where the event counts, and where it does not. -/
theorem carrierEvents : Obligations.CarrierEvents := by
  intro s t k lock
  have run : exec (if lock then .carrierBack t k else .carrierLost t k) s = .next (carrierEvent t k lock s) := by
    cases lock <;> rfl
  refine ⟨fun hn => run.trans (congrArg _ (carrierEvent_ignored hn)), fun hc => ⟨_, run, ?_⟩⟩
  rw [carrierEvent_counts hc]
  exact passed_congr (setPresence_passed t k lock _) fun z => usesSector_iff

end Sys2Proof.Machine.Settled

namespace Sys2Proof.Machine

/-! ### Targets -/

theorem setTarget_pinned {z : Zone} {t : Tenant} {d : Dest} {src : Origin} {s : State} (h : (s.zone z).pinned = true) :
    setTarget z t d src s = s := if_pos h

theorem setTarget_out {z : Zone} {t : Tenant} {d : Dest} {src : Origin} {s : State} (hp : (s.zone z).pinned = false)
    (hs : inService s z = false) :
    setTarget z t d src s =
      if (s.cell z t).home = d then s.modCell z t fun c => { c with home := d, target := d, source := src }
      else pass z (s.modCell z t fun c => { c with home := d, target := d, source := src }) := by
  simp [setTarget, hp, hs]

theorem setTarget_same {z : Zone} {t : Tenant} {d : Dest} {src : Origin} {s : State} (hp : (s.zone z).pinned = false)
    (hs : inService s z = true) (hd : (s.cell z t).target = d) : setTarget z t d src s = s := by
  simp [setTarget, hp, hs, hd]

theorem setTarget_unmoved {z : Zone} {t : Tenant} {d : Dest} {src : Origin} {s : State} (hp : (s.zone z).pinned = false)
    (hs : inService s z = true) (hd : (s.cell z t).target ≠ d) (hm : moveAt s z t = none) :
    setTarget z t d src s = s.modCell z t fun c => { c with target := d, source := src } := by
  simp [setTarget, hp, hs, hd, hm]

theorem setTarget_moved {z : Zone} {t : Tenant} {d : Dest} {src : Origin} {s : State} {m : Move}
    (hp : (s.zone z).pinned = false) (hs : inService s z = true) (hd : (s.cell z t).target ≠ d)
    (hm : moveAt s z t = some m) :
    setTarget z t d src s = retargetMove z t m d src (s.modCell z t fun c => { c with target := d, source := src }) := by
  simp [setTarget, hp, hs, hd, hm]

theorem retargeted_waiting {m : Move} {d : Dest} {src : Origin} (h : m.state = .waiting) :
    retargeted m d src =
      if d = m.src then none else some (if d = m.dst then m else { m with dst := d, origin := src }) := by
  unfold retargeted
  simp only [h]
  split
  · rfl
  · split <;> rfl

theorem retargeted_ramping {m : Move} {d : Dest} {src : Origin} (h : m.state ≠ .waiting) :
    retargeted m d src =
      some (if m.dir = .forward ∧ d = m.src then { m with dir := .reverse, origin := src }
        else if m.dir = .reverse ∧ d = m.dst then { m with dir := .forward, origin := src } else m) := by
  unfold retargeted
  cases hs : m.state with
  | waiting => exact absurd hs h
  | ramping =>
    cases hd : m.dir with
    | forward =>
      by_cases e : d = m.src
      · simp [e]
      · simp [e]
    | reverse =>
      by_cases e : d = m.dst
      · simp [e]
      · simp [e]

/-- R15: the retarget table in the queue; all other moves keep their places. -/
theorem retargetMove_eq (z : Zone) (t : Tenant) (m : Move) (d : Dest) (src : Origin) (s : State) :
    retargetMove z t m d src s =
      { s with
        moves :=
          if m.state = .waiting then
            if d = m.src then s.moves.filter fun n => !(n.zone == z && n.tenant == t)
            else s.moves.map fun n =>
              if n.zone == z && n.tenant == t then (if d = m.dst then m else { m with dst := d, origin := src }) else n
          else s.moves.map fun n =>
            if n.zone == z && n.tenant == t then
              (if m.dir = .forward ∧ d = m.src then { m with dir := .reverse, origin := src }
                else if m.dir = .reverse ∧ d = m.dst then { m with dir := .forward, origin := src }
                else m)
            else n } := by
  unfold retargetMove
  by_cases h : m.state = .waiting
  · rw [retargeted_waiting h, if_pos h]
    by_cases e : d = m.src
    · rw [if_pos e, if_pos e]
      rfl
    · rw [if_neg e, if_neg e]
      rfl
  · rw [retargeted_ramping h, if_neg h]
    rfl

/-- A result and a change of a target commute. -/
theorem setResult_setTarget (p : Port) (r : Result) (z : Zone) (t : Tenant) (d : Dest) (src : Origin) (s : State) :
    setResult p r (setTarget z t d src s) = setTarget z t d src (setResult p r s) :=
  (setTarget_modPort z t d src s p _).symm

theorem advancePointer_setResult (p : Port) (r : Result) (s : State) :
    advancePointer p (setResult p r s) = setResult p r (advancePointer p s) := by
  simp only [advancePointer, setResult, State.modPort_modPort]
  rfl

theorem requestMove_range {a b : Byte} {t : Tenant} {s : State}
    (h : 47 < a.toNat ∨ destOf (s.tenant t).sectorCount b = none) :
    requestMove t a b s = setResult (.tenant t) .range s := by
  unfold requestMove
  split
  · next z d hz hd =>
    rcases h with h | h
    · rw [zoneOf_none h] at hz
      cases hz
    · rw [h] at hd
      cases hd
  · rfl

theorem requestMove_pinned {a b : Byte} {t : Tenant} {z : Zone} {s : State} (h : a.toNat = z.val)
    (hp : (s.zone z).pinned = true) (hd : destOf (s.tenant t).sectorCount b ≠ none) :
    requestMove t a b s = setResult (.tenant t) .skipped s := by
  obtain ⟨d, hd⟩ := Option.ne_none_iff_exists'.mp hd
  simp only [requestMove, zoneOf_some h, hd, if_pos hp]

theorem requestMove_accepted {a b : Byte} {t : Tenant} {z : Zone} {d : Dest} {s : State} (h : a.toNat = z.val)
    (hp : (s.zone z).pinned = false) (hd : destOf (s.tenant t).sectorCount b = some d) :
    requestMove t a b s = finish s (setTarget z t d .tenant (setResult (.tenant t) .ok s)) := by
  simp [requestMove, zoneOf_some h, hd, hp, setResult_setTarget]

theorem cancelMove_range {a : Byte} {t : Tenant} {s : State} (h : 47 < a.toNat) :
    cancelMove t a s = setResult (.tenant t) .range s := by
  simp only [cancelMove, zoneOf_none h]

theorem cancelMove_pinned {a : Byte} {t : Tenant} {z : Zone} {s : State} (h : a.toNat = z.val)
    (hp : (s.zone z).pinned = true) : cancelMove t a s = setResult (.tenant t) .skipped s := by
  simp only [cancelMove, zoneOf_some h, if_pos hp]

theorem cancelMove_accepted {a : Byte} {t : Tenant} {z : Zone} {s : State} (h : a.toNat = z.val)
    (hp : (s.zone z).pinned = false) :
    cancelMove t a s = finish s (setTarget z t (s.cell z t).home .tenant (setResult (.tenant t) .ok s)) := by
  simp [cancelMove, zoneOf_some h, hp, setResult_setTarget]

theorem targetElement_skipped {t : Tenant} {b : Byte} {s : State}
    (h : destOf (s.tenant t).sectorCount b = none ∨ (s.zone (s.port (.tenant t)).pointer).pinned = true) :
    targetElement t b s = setResult (.tenant t) .skipped (advancePointer (.tenant t) s) := by
  rw [← advancePointer_setResult]
  refine congrArg (advancePointer (.tenant t)) ?_
  split
  · rfl
  · next d hd =>
    exact if_pos (h.resolve_left fun e => nomatch hd.symm.trans e)

/-- R17: the change of target and its close commute with the pointer's move. -/
theorem targetElement_closed {before s : State} {t : Tenant} {b : Byte} {d : Dest}
    (hd : destOf (s.tenant t).sectorCount b = some d) (hp : (s.zone (s.port (.tenant t)).pointer).pinned = false)
    (hb : ∀ u, hasWork s u = hasWork before u) :
    Closed before (setTarget (s.port (.tenant t)).pointer t d .tenant (advancePointer (.tenant t) s))
      (targetElement t b s) := by
  have eq : targetElement t b s =
      advancePointer (.tenant t) (finish s (setTarget (s.port (.tenant t)).pointer t d .tenant s)) := by
    simp only [targetElement, hd, hp, Bool.false_eq_true, if_false]
  have closed := finish_closed before s (setTarget (s.port (.tenant t)).pointer t d .tenant s) hb
  rw [eq, advancePointer, setTarget_modPort]
  exact closed.modPort (.tenant t) (fun q => { q with pointer := nextPointer q }) (fun _ _ => rfl) fun _ => rfl

/-! ### Alternates -/

/-- R19: taking each element that is not yet in the list drops every repeat after the first. -/
theorem foldl_dropRepeats (l acc : List Sector) :
    l.foldl (fun ks k => if k ∈ ks then ks else ks ++ [k]) acc = acc ++ (dropRepeats l).filter fun k => decide (k ∉ acc) := by
  induction l generalizing acc with
  | nil => simp [dropRepeats]
  | cons k rest ih =>
    rw [List.foldl_cons, dropRepeats, ih, List.filter_cons, List.filter_filter]
    by_cases h : k ∈ acc
    · rw [if_pos h, if_neg (by simpa using h)]
      refine congrArg (acc ++ ·) (List.filter_congr fun j _ => ?_)
      by_cases e : j = k
      · simp [e, h]
      · simp [e]
    · rw [if_neg h, if_pos (by simpa using h), List.append_assoc, List.singleton_append]
      refine congrArg (fun x => acc ++ k :: x) (List.filter_congr fun j _ => ?_)
      by_cases e : j = k
      · simp [e]
      · simp [e]

theorem sectorOf_isSome {count : Nat} {b : Byte} : (sectorOf count b).isSome = true ↔ b.toNat < count ∧ b.toNat ≤ 5 := by
  unfold sectorOf
  split
  · split
    · simp only [Option.isSome_some, true_iff]
      omega
    · simp only [Option.isSome_none, Bool.false_eq_true, false_iff]
      omega
  · simp only [Option.isSome_none, Bool.false_eq_true, false_iff]
    omega

theorem validAlternate_iff {count : Nat} {b : Byte} :
    validAlternate count b = true ↔ b.toNat = 15 ∨ (b.toNat < count ∧ b.toNat ≤ 5) := by
  rw [validAlternate, Bool.or_eq_true, sectorOf_isSome, beq_iff_eq, ← BitVec.toNat_inj]
  rfl

theorem sectorOf_valid {count : Nat} {b : Byte} (h : validAlternate count b = true) :
    sectorOf count b = if h : b.toNat < 6 then some (⟨b.toNat, h⟩ : Sector) else none := by
  unfold sectorOf
  split
  · exact if_pos (by have := validAlternate_iff.mp h; omega)
  · rfl

theorem alternatesElement_skipped {t : Tenant} {element : List Byte} {s : State}
    (h : ∃ x ∈ element, validAlternate (s.tenant t).sectorCount x = false) :
    alternatesElement t element s = setResult (.tenant t) .skipped (advancePointer (.tenant t) s) := by
  have none : alternatesOf (s.tenant t).sectorCount element = none := if_neg (by simpa using h)
  rw [← advancePointer_setResult]
  simp only [alternatesElement, none]

theorem alternatesElement_taken {t : Tenant} {element : List Byte} {s : State}
    (h : ∀ x ∈ element, validAlternate (s.tenant t).sectorCount x = true) :
    alternatesElement t element s =
      (advancePointer (.tenant t) s).modCell (s.port (.tenant t)).pointer t fun c =>
        { c with
          alternates := (element.filterMap fun x => if h : x.toNat < 6 then some (⟨x.toNat, h⟩ : Sector) else none).foldl
            (fun ks k => if k ∈ ks then ks else ks ++ [k]) [] } := by
  have named : element.filterMap (sectorOf (s.tenant t).sectorCount) =
      element.filterMap fun x => if h : x.toNat < 6 then some (⟨x.toNat, h⟩ : Sector) else none :=
    List.filterMap_congr fun x hx => sectorOf_valid (h x hx)
  have all : alternatesOf (s.tenant t).sectorCount element =
      some (dropRepeats (element.filterMap (sectorOf (s.tenant t).sectorCount))) := if_pos (by simpa using h)
  rw [foldl_dropRepeats, ← named]
  simp only [alternatesElement, all, List.not_mem_nil, not_false_eq_true, decide_true, List.filter_true, List.nil_append]
  rfl

/-! ### Limits -/

/-- R10, R11: the pass of a changed live limit. -/
theorem storeLive_passed (z : Zone) (v : Nat) (s : State) :
    Passed (fun y => y = z ∧ (s.zone z).live ≠ v) (s.modZone z fun r => { r with live := v }) (storeLive z v s) :=
  passed_congr (passed_ite (pass_passed z _)) fun _ => and_comm

theorem setLimit_range {a hi lo : Byte} (h : 47 < a.toNat) (s : State) :
    setLimit a hi lo s = setResult .venue .range s := by
  simp only [setLimit, zoneOf_none h]

theorem setLimit_zone {a hi lo : Byte} {z : Zone} (h : a.toNat = z.val) (s : State) :
    setLimit a hi lo s =
      setResult .venue (if (s.zone z).ceiling < be16 hi lo then .clamped else .ok)
        (storeLive z (min (be16 hi lo) (s.zone z).ceiling) s) := by
  simp only [setLimit, zoneOf_some h, clampResult_decide]

/-- R11: the mark of a held value and the pointer's move. -/
theorem advancePointer_markResult (p : Port) (q : Prop) [Decidable q] (r : Result) (s : State) :
    advancePointer p (markResult p (decide q) r s) =
      s.modPort p fun x => { x with pointer := nextPointer x, result := if q then r else x.result } := by
  by_cases h : q
  · simp only [markResult, h, decide_true, if_true, advancePointer, setResult, State.modPort_modPort]
    rfl
  · simp only [markResult, h, decide_false, Bool.false_eq_true, if_false, advancePointer]

/-! ### Pins and the venue mode -/

theorem pinZone_range {a : Byte} (h : 47 < a.toNat) (s : State) : pinZone a s = setResult .venue .range s := by
  simp only [pinZone, zoneOf_none h]

theorem pinZone_pinned {a : Byte} {z : Zone} {s : State} (h : a.toNat = z.val) (hp : (s.zone z).pinned = true) :
    pinZone a s = setResult .venue .ok s := by
  simp only [pinZone, zoneOf_some h, if_pos hp]

theorem pinZone_accepted {a : Byte} {z : Zone} {s : State} (h : a.toNat = z.val) (hp : (s.zone z).pinned = false) :
    pinZone a s = finish s (setResult .venue .ok (pinRecord z s)) := by
  simp [pinZone, zoneOf_some h, hp]

theorem unpinZone_range {a : Byte} (h : 47 < a.toNat) (s : State) : unpinZone a s = setResult .venue .range s := by
  simp only [unpinZone, zoneOf_none h]

theorem unpinZone_zone {a : Byte} {z : Zone} (h : a.toNat = z.val) (s : State) :
    unpinZone a s = setResult .venue .ok (s.modZone z fun r => { r with pinned := false }) := by
  simp only [unpinZone, zoneOf_some h]

theorem pinnedTarget_eq (m : Option Move) (home : Dest) :
    pinnedTarget m home = match m with
      | none => home
      | some m => if m.state = .waiting then home else if m.dir = .forward then m.dst else m.src := by
  cases m with
  | none => rfl
  | some m =>
    unfold pinnedTarget
    cases h : m.state <;> simp [h]

/-- R12: what a pin leaves. -/
theorem pinRecord_eq (z : Zone) (s : State) :
    pinRecord z s =
      { (s.modZoneCells z fun t c =>
          { c with
            target := match moveAt s z t with
              | none => c.home
              | some m =>
                if m.state = .waiting then c.home else if m.dir = .forward then m.dst else m.src }).modZone z
            fun r => { r with pinned := true } with
        moves := s.moves.filter fun m => !(m.zone == z && m.state == MoveState.waiting) } := by
  simp only [pinRecord, pinnedTarget_eq]
  rfl

theorem modeOf_none {b : Byte} (h : 1 < b.toNat) : modeOf b = none := by
  unfold modeOf
  split
  · omega
  · omega
  · rfl

/-- R23, R24: the passes where the dimmed flag of a zone changes. -/
theorem passDimmed_passed (before s : State) : Passed (fun z => dimmed before z ≠ dimmed s z) s (passDimmed before s) :=
  passed_congr (passes_passed _ s) fun z => by rw [bne_iff_ne]

end Sys2Proof.Machine

namespace Sys2Proof.Machine.Settled

/-- Settles O20: the cases of `setTarget`, and the retarget table. -/
theorem targetChange : Obligations.TargetChange := by
  intro s z t d src
  refine ⟨setTarget_pinned, fun hp hs => ?_, setTarget_same, fun hp hs hd => ⟨setTarget_unmoved hp hs hd, fun m hm => ?_⟩⟩
  · rw [setTarget_out hp hs]
    exact passed_congr (passed_ite (pass_passed z _)) fun _ => and_comm
  · rw [setTarget_moved hp hs hd hm]
    exact retargetMove_eq z t m d src _

/-- Settles O21: the two outcomes of `targetElement`. -/
theorem targetElement : Obligations.TargetElement := by
  intro s t b h
  have run : exec (.writeTargetsElement (.tenant t) (Clocked.whole [b])) s =
      .next (Machine.targetElement t b (afterElement (.tenant t) 1 s)) :=
    exec_streaming h (row := .writeTargetsElement) (by simp [elementRows]) rfl
  have pointer : ((afterElement (.tenant t) 1 s).port (.tenant t)).pointer = (s.port (.tenant t)).pointer := by
    simp [afterElement]
  refine ⟨fun hn => run.trans (congrArg _ (targetElement_skipped ?_)), fun d hd hp => ⟨_, run, ?_⟩⟩
  · rw [pointer]
    exact hn
  · have closed := targetElement_closed (before := s) (s := afterElement (.tenant t) 1 s) hd (pointer ▸ hp) fun _ => rfl
    rw [pointer] at closed
    exact closed

/-- Settles O22: the outcomes of `requestMove` and `cancelMove`. -/
theorem requestAndCancelMove : Obligations.RequestAndCancelMove := by
  intro s t a b h ha
  have request : exec (.requestMove (.tenant t) (Burst.whole [a, b])) s =
      .next (requestMove t a b (afterFixed (.tenant t) .requestMove 2 .incomplete s)) :=
    exec_tenant h ha (c := .requestMove) rfl rfl rfl
  have cancel : exec (.cancelMove (.tenant t) (Burst.whole [a])) s =
      .next (cancelMove t a (afterFixed (.tenant t) .cancelMove 1 .incomplete s)) :=
    exec_tenant h ha (c := .cancelMove) rfl rfl rfl
  refine ⟨fun hr => exec_result request (requestMove_range hr), fun hr => exec_result cancel (cancelMove_range hr),
    fun z hz => ⟨fun hp => ⟨fun hd => exec_result request (requestMove_pinned hz hp hd),
      exec_result cancel (cancelMove_pinned hz hp)⟩, fun hp => ⟨fun d hd => ?_, ?_⟩⟩⟩
  · have run := request.trans (congrArg _ (requestMove_accepted hz hp hd))
    rw [setResult_afterFixed] at run
    exact ⟨_, run, finish_closed s _ _ fun _ => rfl⟩
  · have run := cancel.trans (congrArg _ (cancelMove_accepted hz hp))
    rw [setResult_afterFixed] at run
    exact ⟨_, run, finish_closed s _ _ fun _ => rfl⟩

/-- Settles O23: the two outcomes of `alternatesElement`. -/
theorem alternatesElement : Obligations.AlternatesElement := by
  intro s t a b c h
  have run : exec (.writeAlternatesElement (.tenant t) (Clocked.whole [a, b, c])) s =
      .next (Machine.alternatesElement t [a, b, c] (afterElement (.tenant t) 3 s)) :=
    exec_streaming h (row := .writeAlternatesElement) (by simp [elementRows]) rfl
  have pointer : ((afterElement (.tenant t) 3 s).port (.tenant t)).pointer = (s.port (.tenant t)).pointer := by
    simp [afterElement]
  refine ⟨fun ⟨x, hx, hb⟩ => run.trans (congrArg _ (alternatesElement_skipped ⟨x, hx, ?_⟩)), fun hv => ?_⟩
  · rw [Bool.eq_false_iff, ne_eq, validAlternate_iff]
    change ¬ (x.toNat = 15 ∨ (x.toNat < (s.tenant t).sectorCount ∧ x.toNat ≤ 5))
    omega
  · have taken := run.trans (congrArg _ (alternatesElement_taken fun x hx => validAlternate_iff.mpr (hv x hx)))
    rw [pointer] at taken
    exact taken

/-- Settles O24: the pass of a changed live limit, after the command and after the element. -/
theorem limits : Obligations.Limits := by
  intro s a hi lo
  refine ⟨fun h => ?_, fun h => ?_⟩
  · have run : exec (.setLimit .venue (Burst.whole [a, hi, lo])) s =
        .next (setLimit a hi lo (afterFixed .venue .setLimit 3 .incomplete s)) :=
      exec_venue h (c := .setLimit) rfl (by decide) rfl
    refine ⟨fun ha => exec_result run (setLimit_range ha _), fun z hz => ⟨_, run, ?_⟩⟩
    rw [setLimit_zone hz]
    exact passed_afterFixed (fun x => x.modZone z fun r => { r with live := min (be16 hi lo) r.ceiling })
      (storeLive_passed z _ _) rfl
  · have run : exec (.writeLimitsElement .venue (Clocked.whole [hi, lo])) s =
        .next (limitElement hi lo (afterElement .venue 2 s)) :=
      exec_streaming h (row := .writeLimitsElement) (by simp [elementRows]) rfl
    have pointer : ((afterElement .venue 2 s).port .venue).pointer = (s.port .venue).pointer := by
      simp [afterElement]
    refine ⟨_, run, ?_⟩
    rw [limitElement, advancePointer_markResult, pointer]
    have passed := storeLive_passed (s.port .venue).pointer (min (be16 hi lo) (s.zone (s.port .venue).pointer).ceiling)
      (afterElement .venue 2 s)
    exact passed.modPort .venue fun q =>
      { q with
        pointer := nextPointer q
        result := if (s.zone (s.port .venue).pointer).ceiling < be16 hi lo then .clamped else q.result }

/-- Settles O25: the outcomes of `pinZone` and `unpinZone`. -/
theorem pinAndUnpin : Obligations.PinAndUnpin := by
  intro s a h
  have pin : exec (.pinZone .venue (Burst.whole [a])) s =
      .next (pinZone a (afterFixed .venue .pinZone 1 .incomplete s)) :=
    exec_venue h (c := .pinZone) rfl (by decide) rfl
  have unpin : exec (.unpinZone .venue (Burst.whole [a])) s =
      .next (unpinZone a (afterFixed .venue .unpinZone 1 .incomplete s)) :=
    exec_venue h (c := .unpinZone) rfl (by decide) rfl
  refine ⟨fun ha => ⟨exec_result pin (pinZone_range ha _), exec_result unpin (unpinZone_range ha _)⟩, fun z hz =>
    ⟨fun hp => exec_result pin (pinZone_pinned hz hp), fun hp => ⟨_, pin, ?_⟩, ?_⟩⟩
  · rw [pinZone_accepted (s := afterFixed .venue .pinZone 1 .incomplete s) hz hp]
    have closed := finish_closed s (afterFixed .venue .pinZone 1 .incomplete s)
      (setResult .venue .ok (pinRecord z (afterFixed .venue .pinZone 1 .incomplete s))) fun _ => rfl
    have pinned : setResult .venue .ok (pinRecord z (afterFixed .venue .pinZone 1 .incomplete s)) =
        pinRecord z (afterFixed .venue .pinZone 1 .ok s) :=
      congrArg (pinRecord z) (setResult_afterFixed .venue .pinZone 1 .ok .incomplete s)
    rw [pinned] at closed ⊢
    exact Eq.subst (motive := fun x => Closed s x _) (pinRecord_eq z _) closed
  · rw [unpin, unpinZone_zone hz]
    exact congrArg (fun x => Host.Outcome.next (State.modZone x z fun r => { r with pinned := false }))
      (setResult_afterFixed .venue .unpinZone 1 .ok .incomplete s)

/-- Settles O26: the refusal of `setVenueMode`, and the passes of the two commands. -/
theorem venueMode : Obligations.VenueMode := by
  intro s b h
  have mode : exec (.setVenueMode .venue (Burst.whole [b])) s =
      .next (setVenueMode b (afterFixed .venue .setVenueMode 1 .incomplete s)) :=
    exec_venue h (c := .setVenueMode) rfl (by decide) rfl
  have standby : exec (.setStandbyClasses .venue (Burst.whole [b])) s =
      .next (setStandbyClasses b (afterFixed .venue .setStandbyClasses 1 .incomplete s)) :=
    exec_venue h (c := .setStandbyClasses) rfl (by decide) rfl
  refine ⟨fun hb => exec_result mode (by rw [setVenueMode, modeOf_none hb]), fun m hm => ⟨_, mode, ?_⟩, _, standby, ?_⟩
  · rw [setVenueMode, hm]
    exact passed_afterFixed (fun x => { x with venueMode := m, wakeCount := 0 }) (passDimmed_passed _ _) rfl
  · exact passed_afterFixed (fun x => { x with standbyDark := standbyFlags b }) (passDimmed_passed _ _) rfl

end Sys2Proof.Machine.Settled

namespace Sys2Proof.Machine

/-! ### Elements of the streamed reads -/

/-- R170: the octets of the element as it stands, and the read moves on. -/
theorem exec_readElement {s : State} {p : Port} {r : ReadFrom} {row : Port → Clocked → Instr} {os : List Byte}
    (h : Reading s p r) (hrow : row ∈ elementRows) (hr : ∀ el, r ≠ .reply el) (hn : os.length = readSize r)
    (he : (readElement p (opened p s) r).length = readSize r) :
    exec (row p (Clocked.whole os)) s = .next (s.modPort p fun q =>
      { q with
        cmd := .reading (nextRead s r) none 0
        pointer := if windowedRead r then nextPointer q else q.pointer
        dataOut := readElement p (opened p s) r }) := by
  obtain ⟨ready, hc⟩ := h
  obtain ⟨starting, _, _, assembly⟩ := ready
  have reading : ((opened p s).port p).cmd = .reading r none 0 := by simp [opened, hc]
  have next : nextRead (opened p s) r = nextRead s r := by cases r <;> rfl
  rw [exec_elementRow hrow, clockElement_whole ⟨starting, ‹_›, ‹_›, assembly⟩,
    takeOctets_element (s := opened p s) starting reading hr os hn he, next]
  refine congrArg Host.Outcome.next ?_
  rw [opened, State.modPort_modPort]
  refine State.modPort_congr s p ?_
  simp [assembly, nextPointer]

/-- Taking octets moves no pointer. -/
theorem opened_pointer (p : Port) (s : State) : ((opened p s).port p).pointer = (s.port p).pointer := by
  simp [opened]

/-- R168, R170: an element of a read over the window, of the zone at the pointer. -/
theorem exec_windowedElement {s : State} {p : Port} {r : ReadFrom} {row : Port → Clocked → Instr} {os : List Byte}
    (h : Reading s p r) (hrow : row ∈ elementRows) (hw : windowedRead r = true) (hn : os.length = readSize r)
    {element : Zone → List Byte} (he : readElement p (opened p s) r = element ((opened p s).port p).pointer)
    (hl : ∀ z, (element z).length = readSize r) :
    exec (row p (Clocked.whole os)) s =
      .next (s.modPort p fun q => { q with dataOut := element q.pointer, pointer := nextPointer q }) := by
  have notReply : ∀ el, r ≠ .reply el := by
    rintro el rfl
    cases hw
  have stays : nextRead s r = r := by
    cases r with
    | loads t k => cases hw
    | weights i => cases hw
    | _ => rfl
  rw [exec_readElement h hrow notReply hn (he ▸ hl _), stays, he, opened_pointer]
  refine congrArg Host.Outcome.next (State.modPort_congr s p ?_)
  rw [if_pos hw, ← h.2]

/-! ### Settings -/

theorem clampResult_iff {b : Bool} {q : Prop} [Decidable q] (h : b = true ↔ q) :
    clampResult b = if q then .clamped else .ok := by
  unfold clampResult
  exact if_congr h rfl rfl

theorem clampFrom1_ne {top v : Nat} : clampFrom1 top v ≠ v ↔ v = 0 ∨ max 1 top < v := by
  unfold clampFrom1
  omega

theorem alarmOf_none {b : Byte} (h : 3 < b.toNat) : alarmOf b = none := by
  unfold alarmOf
  split
  · omega
  · omega
  · omega
  · omega
  · rfl

theorem alarmOf_some {b : Byte} {i : Fin 4} (h : b.toNat = i.val) : ∃ c, alarmOf b = some c ∧ alarmIdx c = i := by
  unfold alarmOf
  rw [h]
  clear h
  revert i
  decide

theorem setEscalation_none {a b : Byte} (h : 3 < a.toNat) (s : State) :
    setEscalation a b s = setResult .venue .range s := by
  simp only [setEscalation, alarmOf_none h]

theorem setEscalation_class {a b : Byte} {i : Fin 4} (h : a.toNat = i.val) (s : State) :
    setEscalation a b s = setResult .venue .ok { s with escalation := tset s.escalation i b.toNat } := by
  obtain ⟨c, hc, rfl⟩ := alarmOf_some h
  simp only [setEscalation, hc]

theorem setCensus_eq (a : Byte) (s : State) :
    setCensus a s =
      setResult .venue (if a.toNat = 0 then .clamped else .ok) { s with censusInterval := max 1 a.toNat } := by
  rw [setCensus, clampResult_iff beq_iff_eq]

theorem setRamp_eq (a b : Byte) (s : State) :
    setRamp a b s =
      setResult .venue (if a.toNat = 0 ∨ b.toNat = 0 ∨ 32 < b.toNat then .clamped else .ok)
        { s with rampTick := max 1 a.toNat, rampStep := max 1 (min b.toNat 32) } := by
  rw [setRamp, clampResult_iff (q := a.toNat = 0 ∨ b.toNat = 0 ∨ 32 < b.toNat)]
  · rfl
  · simp [clampFrom1_ne]

theorem setSupervision_eq (a b c d : Byte) (s : State) :
    setSupervision a b c d s =
      setResult .venue
        (if a.toNat < 5 ∨ b.toNat < 2 ∨ 15 < b.toNat ∨ c.toNat = 0 ∨ 7 < c.toNat ∨ d.toNat = 0 ∨ 8 < d.toNat
          then .clamped else .ok)
        { s with
          pollInterval := max 5 a.toNat
          lossThreshold := max 2 (min b.toNat 15)
          recoveryCount := max 1 (min c.toNat 7)
          alarmDebounce := max 1 (min d.toNat 8) } := by
  unfold setSupervision
  dsimp only
  rw [clampResult_iff (q := a.toNat < 5 ∨ b.toNat < 2 ∨ 15 < b.toNat ∨ c.toNat = 0 ∨ 7 < c.toNat ∨ d.toNat = 0 ∨ 8 < d.toNat)]
  · rfl
  · simp only [Bool.or_eq_true, bne_iff_ne, clampFrom1_ne, clampPoll, clampLoss]
    omega

theorem setWake_eq (a b c : Byte) (s : State) :
    setWake a b c s =
      setResult .venue (if c.toNat = 0 ∨ 15 < c.toNat then .clamped else .ok)
        { s with wakeThreshold := be16 a b, wakeDebounce := max 1 (min c.toNat 15), wakeCount := 0 } := by
  rw [setWake, clampResult_iff (q := c.toNat = 0 ∨ 15 < c.toNat)]
  · rfl
  · simp [clampFrom1_ne]

/-- A result, and a change of the state that keeps the ports, after a whole fixed command. -/
theorem exec_setting {i : Instr} {s x : State} {c : Command} {n : Nat} {r : Result} (f : State → State)
    (run : exec i s = .next x) (e : x = setResult .venue r (f (afterFixed .venue c n .incomplete s)))
    (hf : setResult .venue r (f (afterFixed .venue c n .incomplete s)) =
      f (setResult .venue r (afterFixed .venue c n .incomplete s))) :
    exec i s = .next (f (afterFixed .venue c n r s)) := by
  rw [run, e, hf, setResult_afterFixed]

/-! ### Misses -/

theorem outage_record (z : Zone) (s : State) :
    outage z s =
      { s with
        cells := (s.modZoneCells z fun _ c => { c with home := c.target, occupancy := 0 }).cells
        moves := s.moves.filter fun m => m.zone != z } := by
  have cells : (outage z s).cells = (s.modZoneCells z fun _ c => { c with home := c.target, occupancy := 0 }).cells :=
    table_ext _ _ fun y => table_ext _ _ fun u =>
      (outage_cell z s y u).trans (State.cell_modZoneCells s z y u fun _ c => { c with home := c.target, occupancy := 0 }).symm
  rw [← cells]
  rfl

/-! ### Replies -/

theorem State.modRemote_congr (s : State) (z : Zone) {f g : RemoteRec → RemoteRec} (h : f (s.remote z) = g (s.remote z)) :
    s.modRemote z f = s.modRemote z g := by
  have e : f (tget s.remotes z) = g (tget s.remotes z) := h
  simp only [State.modRemote, tmod, e]

theorem replyAlarms_eq (z : Zone) (st : Status) (s : State) :
    replyAlarms z st s =
      replyAlarm z st .uplinkHot (replyAlarm z st .supply (replyAlarm z st .mismatch (replyAlarm z st .heat s))) := by
  simp only [replyAlarms, allAlarms, List.foldl_cons, List.foldl_nil]

/-- R122: the entry to service. -/
theorem enterService_eq (z : Zone) (s : State) :
    ∃ v,
      Results (fun y => y = z)
        (s.modRemote z fun r =>
          { r with
            state := serviceState s z
            overdrive := 0
            behindBreak := if r.state = .lost then false else r.behindBreak })
        v ∧
      enterService z s =
        if (s.remote z).state = .lost then
          appendLog { kind := .remoteBack, time := s.seconds, vis := .all, zone := some z } (queueSet z v)
        else queueSet z v := by
  refine ⟨_, passResults_results z _, ?_⟩
  unfold enterService
  dsimp only
  rw [State.modRemote_congr s z (f := fun r => { r with
      state := serviceState s z
      overdrive := 0
      behindBreak := if (s.remote z).state == .lost then false else r.behindBreak })
    (g := fun r => { r with
      state := serviceState s z
      overdrive := 0
      behindBreak := if r.state = .lost then false else r.behindBreak }) (by simp)]
  by_cases h : (s.remote z).state = .lost
  · rw [if_pos h, if_pos (by simpa using h), logZone, logEntry, queueSet_eq]
    rfl
  · rw [if_neg h, if_neg (by simpa using h)]

theorem replyService_waiting {z : Zone} {s : State} (h : (s.remote z).state = .searching ∨ (s.remote z).state = .lost) :
    replyService z s = if s.recoveryCount ≤ (s.remote z).goodCount then enterService z s else s := by
  unfold replyService
  rcases h with h | h <;> rw [h]

/-- R124: the state that the alarm set gives a remote in service. -/
theorem replyService_serving {z : Zone} {s : State} (h : (s.remote z).state = .alive ∨ (s.remote z).state = .degraded) :
    replyService z s =
      if (s.remote z).state = serviceState s z then s
      else pass z (s.modRemote z fun r => { r with state := serviceState s z }) := by
  unfold replyService serviceState
  rcases h with h | h <;> rw [h] <;> cases anyAlarm s z <;> rfl

theorem replyService_out {z : Zone} {s : State} (h : (s.remote z).state = .isolated ∨ (s.remote z).state = .unbound) :
    replyService z s = s := by
  unfold replyService
  rcases h with h | h <;> rw [h]

end Sys2Proof.Machine

namespace Sys2Proof.Machine.Settled

/-- Settles O11: each element as it stands (`exec_readElement`), and what follows it in its read. -/
theorem readElements : Obligations.ReadElements := by
  intro s p os
  refine ⟨fun t h hn => ?_, fun t h hn => ?_, fun h hn => ?_, fun t k h hn => ?_, fun i h hn => ?_⟩
  · exact exec_windowedElement h (row := .readPlanElement) (by simp [elementRows]) rfl hn rfl fun _ => rfl
  · exact exec_windowedElement h (row := .readGrantsElement) (by simp [elementRows]) rfl hn rfl fun _ => rfl
  · exact exec_windowedElement h (row := .readZonesElement) (by simp [elementRows]) rfl hn rfl fun _ => rfl
  · rw [exec_readElement h (row := .readLoadsElement) (by simp [elementRows]) (by simp) hn rfl]
    rfl
  · rw [exec_readElement h (row := .readWeightsElement) (by simp [elementRows]) (by simp) hn rfl]
    rfl

/-- Settles O37: each setting in its range, and the result that tells of a value held. -/
theorem settings : Obligations.Settings := by
  refine ⟨fun s a b c d h => ⟨?_, ?_, ?_, fun ha => ?_, fun i hi => ?_, ?_⟩, fun s i b h => ?_⟩
  · exact exec_setting (fun x => { x with censusInterval := max 1 a.toNat })
      (exec_venue h (c := .setCensus) (os := [a]) rfl (by decide) rfl) (setCensus_eq a _) rfl
  · exact exec_setting (fun x => { x with rampTick := max 1 a.toNat, rampStep := max 1 (min b.toNat 32) })
      (exec_venue h (c := .setRamp) (os := [a, b]) rfl (by decide) rfl) (setRamp_eq a b _) rfl
  · exact exec_setting
      (fun x =>
        { x with
          pollInterval := max 5 a.toNat
          lossThreshold := max 2 (min b.toNat 15)
          recoveryCount := max 1 (min c.toNat 7)
          alarmDebounce := max 1 (min d.toNat 8) })
      (exec_venue h (c := .setSupervision) (os := [a, b, c, d]) rfl (by decide) rfl) (setSupervision_eq a b c d _) rfl
  · exact exec_result (exec_venue h (c := .setEscalation) (os := [a, b]) rfl (by decide) rfl) (setEscalation_none ha _)
  · exact exec_setting (fun x => { x with escalation := tset s.escalation i b.toNat })
      (exec_venue h (c := .setEscalation) (os := [a, b]) rfl (by decide) rfl) (setEscalation_class hi _) rfl
  · exact exec_setting
      (fun x => { x with wakeThreshold := be16 a b, wakeDebounce := max 1 (min c.toNat 15), wakeCount := 0 })
      (exec_venue h (c := .setWake) (os := [a, b, c]) rfl (by decide) rfl) (setWake_eq a b c _) rfl
  · exact exec_streaming h (row := .writeWeightsElement) (by simp [elementRows]) rfl

/-- Settles O46: the states of a remote at a miss, and the outage of one that is lost. -/
theorem miss : Obligations.Miss := by
  intro s z
  have state : ((s.modRemote z fun r => { r with goodCount := 0, missCount := min (r.missCount + 1) 15 }).remote z).state =
      (s.remote z).state := by simp
  have count : ((s.modRemote z fun r => { r with goodCount := 0, missCount := min (r.missCount + 1) 15 }).remote z).missCount =
      min ((s.remote z).missCount + 1) 15 := by simp
  have silent : ((s.modRemote z fun r =>
      { r with goodCount := 0, missCount := min (r.missCount + 1) 15 }).remote z).silentReported =
      (s.remote z).silentReported := by simp
  refine ⟨fun h => ⟨fun hr => ?_, fun hr => ?_⟩, fun h => ⟨fun hr => ?_, fun hr => ?_⟩, fun h => ?_, fun h => ?_⟩
  · simp only [handleMiss, state, h, count, silent]
    exact if_pos hr
  · simp only [handleMiss, state, h, count, silent]
    exact if_neg hr
  · rcases h with h | h <;> simp only [handleMiss, state, h, count] <;> exact if_neg hr
  · have lost : handleMiss z s =
        enterLost z (s.modRemote z fun r => { r with goodCount := 0, missCount := min (r.missCount + 1) 15 }) := by
      rcases h with h | h <;> simp only [handleMiss, state, h, count] <;> exact if_pos hr
    rw [lost]
    exact Eq.subst (motive := fun x => Passed _ x _) (outage_record z _) (pass_passed z _)
  · rcases h with h | h <;> simp only [handleMiss, state, h]
  · simp only [handleMiss, state, h]

/-- Settles O47: the steps of a reply, with the cases of `replyService` and `replyOccupancy`. -/
theorem replyService : Obligations.ReplyService := by
  intro s z st
  refine ⟨by rw [handleReply, replyAlarms_eq], rfl, ⟨fun h => ⟨fun hc => ?_, fun hc => ?_⟩, fun h => ⟨fun hs => ?_, fun hs => ?_⟩⟩, replyService_out,
    fun h => if_pos h, fun h => if_neg (by simp [h])⟩
  · rw [replyService_waiting h, if_neg (by omega)]
  · rw [replyService_waiting h, if_pos hc]
    exact enterService_eq z s
  · rw [replyService_serving h]
    exact if_pos hs
  · rw [replyService_serving h, if_neg (show (s.remote z).state ≠ serviceState s z from hs)]
    exact pass_passed z _

end Sys2Proof.Machine.Settled

namespace Sys2Proof.Machine

/-! ### Recalls

A recall runs through the zones of a tenant's column. Each zone's entry reads the pin, the service, the tenant's settings
and its own cell, none of which the entries of other zones change, so each may read them in the state before the recall. -/

/-- What a recall reads and changes of a cell. -/
def planOf (c : Cell) : Dest × Dest × Origin × Nat := (c.home, c.target, c.source, c.holdOff)

/-- The records besides the cells that a recall reads. -/
structure SameRecords (s a : State) : Prop where
  pinned : ∀ z, (a.zone z).pinned = (s.zone z).pinned
  service : ∀ z, inService a z = inService s z
  tenants : a.tenants = s.tenants

/-- R72: the entry of a zone, with what it reads taken from `s`. -/
def recallStep (s : State) (t : Tenant) (scene : Vector SceneEntry 48) (a : State) (z : Zone) : State :=
  match tget scene z with
  | .keep => a
  | .dest d =>
    if (s.zone z).pinned = true then a
    else if (s.cell z t).target = d then a
    else (setTarget z t d .scene a).modCell z t fun c => { c with holdOff := (s.tenant t).spreading.holdOff }

/-- R72: the entry of a zone is passed over for its pin. -/
def passedOver (s : State) (scene : Vector SceneEntry 48) (z : Zone) : Bool :=
  tget scene z != .keep && (s.zone z).pinned

/-- R21, R72, R73: what a recall leaves of a cell of its tenant. -/
def recalled (s : State) (t : Tenant) (scene : Vector SceneEntry 48) (z : Zone) : Dest × Dest × Origin × Nat :=
  match tget scene z with
  | .keep => planOf (s.cell z t)
  | .dest d =>
    if (s.zone z).pinned = true then planOf (s.cell z t)
    else if (s.cell z t).target = d then planOf (s.cell z t)
    else (if inService s z = true then (s.cell z t).home else d, d, .scene, (s.tenant t).spreading.holdOff)

theorem recalled_dest {s : State} {t : Tenant} {scene : Vector SceneEntry 48} {z : Zone} {d : Dest}
    (hz : tget scene z = .dest d) (hp : (s.zone z).pinned = false) :
    recalled s t scene z =
      if (s.cell z t).target = d then planOf (s.cell z t)
      else (if inService s z = true then (s.cell z t).home else d, d, .scene, (s.tenant t).spreading.holdOff) := by
  simp [recalled, hz, hp]

theorem recalled_kept {s : State} {t : Tenant} {scene : Vector SceneEntry 48} {z : Zone}
    (h : tget scene z = .keep ∨ (s.zone z).pinned = true) : recalled s t scene z = planOf (s.cell z t) := by
  unfold recalled
  rcases h with h | h
  · simp [h]
  · cases tget scene z <;> simp [h]

theorem planOf_congr {s a : State} (h : outsidePasses a = outsidePasses s) (z : Zone) (u : Tenant) :
    planOf (a.cell z u) = planOf (s.cell z u) := by
  have masked : (outsidePasses a).cell z u = (outsidePasses s).cell z u := by rw [h]
  simp only [outsidePasses_cell, Cell.mk.injEq] at masked
  obtain ⟨home, target, source, _, holdOff, _⟩ := masked
  simp only [planOf, home, target, source, holdOff]

theorem SameRecords.outside {s a b : State} (h : SameRecords s b) (e : outsidePasses a = outsidePasses b) :
    SameRecords s a := by
  refine ⟨fun z => ?_, fun z => ?_, ?_⟩
  · have masked : (outsidePasses a).zone z = (outsidePasses b).zone z := by rw [e]
    simp only [outsidePasses_zone, ZoneRec.mk.injEq] at masked
    obtain ⟨_, _, _, _, pinned, _⟩ := masked
    rw [pinned, h.pinned]
  · rw [← inService_outside, e, inService_outside, h.service]
  · have tenants := congrArg State.tenants e
    exact Eq.trans tenants h.tenants

/-- R15: a change of target changes its cell and the Move Queue, and may owe a pass. -/
theorem setTarget_outside {z : Zone} {t : Tenant} {d : Dest} {src : Origin} {a : State} (hp : (a.zone z).pinned = false)
    (hd : (a.cell z t).target ≠ d) :
    ∃ moves, outsidePasses (setTarget z t d src a) = outsidePasses
      { a.modCell z t fun c =>
          { c with home := if inService a z = true then c.home else d, target := d, source := src } with
        moves := moves } := by
  cases hs : inService a z with
  | true =>
    cases hm : moveAt a z t with
    | none => exact ⟨a.moves, congrArg outsidePasses (setTarget_unmoved hp hs hd hm)⟩
    | some m =>
      refine ⟨_, congrArg outsidePasses ((setTarget_moved hp hs hd hm).trans (retargetMove_eq z t m d src _))⟩
  | false =>
    refine ⟨a.moves, ?_⟩
    rw [setTarget_out hp hs]
    split
    · rfl
    · exact outsidePasses_pass z _

section

variable {s a : State} {t : Tenant} {scene : Vector SceneEntry 48} {z : Zone}

theorem recallStep_same (h : SameRecords s a) (hc : planOf (a.cell z t) = planOf (s.cell z t)) :
    SameRecords s (recallStep s t scene a z) ∧
      (∀ y u, (z = y → t ≠ u) → planOf ((recallStep s t scene a z).cell y u) = planOf (a.cell y u)) ∧
      planOf ((recallStep s t scene a z).cell z t) = recalled s t scene z := by
  have target : (a.cell z t).target = (s.cell z t).target := congrArg (fun x => x.2.1) hc
  have home : (a.cell z t).home = (s.cell z t).home := congrArg (fun x => x.1) hc
  unfold recallStep recalled
  split
  · exact ⟨h, fun _ _ _ => rfl, hc⟩
  · next d _ =>
    split
    · exact ⟨h, fun _ _ _ => rfl, hc⟩
    · next hp =>
      split
      · exact ⟨h, fun _ _ _ => rfl, hc⟩
      · next hd =>
        obtain ⟨moves, e⟩ := setTarget_outside (z := z) (t := t) (d := d) (src := .scene) (a := a)
          (by rw [h.pinned]; simpa using hp) (target ▸ hd)
        have set : SameRecords s (setTarget z t d .scene a) :=
          SameRecords.outside (b := { a.modCell z t _ with moves := moves }) ⟨h.pinned, h.service, h.tenants⟩ e
        have cell := planOf_congr e
        refine ⟨⟨set.pinned, set.service, set.tenants⟩, fun y u hne => ?_, ?_⟩
        · rw [State.cell_modCell, if_neg fun hx => hne hx.1 hx.2, cell]
          exact congrArg planOf ((State.cell_modCell a z y t u _).trans (if_neg fun hx => hne hx.1 hx.2))
        · have own := (cell z t).trans (congrArg planOf ((State.cell_modCell a z z t t _).trans (if_pos ⟨rfl, rfl⟩)))
          simp only [planOf, Prod.mk.injEq] at own
          obtain ⟨h1, h2, h3, _⟩ := own
          rw [State.cell_modCell, if_pos ⟨rfl, rfl⟩]
          simp only [planOf, h1, h2, h3, h.service, home]

theorem setResult_recallStep (p : Port) (r : Result) :
    setResult p r (recallStep s t scene a z) = recallStep s t scene (setResult p r a) z := by
  unfold recallStep
  split
  · rfl
  · split
    · rfl
    · split
      · rfl
      · exact congrArg (fun x => State.modCell x z t _) (setResult_setTarget p r z t _ .scene a)

/-- R72: the entry of a zone, from the records before the recall. -/
theorem recallEntry_eq (h : SameRecords s a) (hc : planOf (a.cell z t) = planOf (s.cell z t)) :
    recallEntry t scene a z = markResult (.tenant t) (passedOver s scene z) .skipped (recallStep s t scene a z) := by
  have target : (a.cell z t).target = (s.cell z t).target := congrArg (fun x => x.2.1) hc
  unfold recallEntry recallStep passedOver markResult
  rw [h.pinned, target]
  cases he : tget scene z with
  | keep => rfl
  | dest d =>
    cases hp : (s.zone z).pinned with
    | true => rfl
    | false =>
      by_cases hd : (s.cell z t).target = d
      · simp [hd]
      · have tenant : (setTarget z t d .scene a).tenant t = s.tenant t := by
          rw [State.tenant, setTarget_tenants, h.tenants, State.tenant]
        simp [hd, setHoldOff, tenant]

end

section

variable {s : State} {t : Tenant} {scene : Vector SceneEntry 48}

theorem setResult_foldl_recallStep (p : Port) (r : Result) (l : List Zone) (a : State) :
    setResult p r (l.foldl (recallStep s t scene) a) = l.foldl (recallStep s t scene) (setResult p r a) := by
  induction l generalizing a with
  | nil => rfl
  | cons z rest ih => rw [List.foldl_cons, List.foldl_cons, ih, setResult_recallStep]

/-- R72: the cells after a recall of the zones `l`. -/
theorem foldl_recallStep_plan (l : List Zone) (hl : l.Nodup) {a : State} (h : SameRecords s a)
    (hc : ∀ z ∈ l, planOf (a.cell z t) = planOf (s.cell z t)) (y : Zone) (u : Tenant) :
    planOf ((l.foldl (recallStep s t scene) a).cell y u) =
      if u = t ∧ y ∈ l then recalled s t scene y else planOf (a.cell y u) := by
  induction l generalizing a with
  | nil => simp
  | cons z rest ih =>
    obtain ⟨hz, hr⟩ := List.nodup_cons.mp hl
    obtain ⟨records, others, own⟩ := recallStep_same (scene := scene) h (hc z List.mem_cons_self)
    have later : ∀ x ∈ rest, planOf ((recallStep s t scene a z).cell x t) = planOf (s.cell x t) := fun x hx => by
      rw [others x t fun e => absurd (e ▸ hx) hz, hc x (List.mem_cons_of_mem _ hx)]
    rw [List.foldl_cons, ih hr records later]
    by_cases hu : u = t
    · subst hu
      by_cases hy : y = z
      · subst hy
        simp [hz, own]
      · by_cases hm : y ∈ rest
        · simp [hm]
        · simp [hm, hy, others y u fun e => absurd e.symm hy]
    · simp [hu, others y u fun _ e => hu e.symm]

/-- R72: a recall is its entries, each from the records before the recall, with the result that tells of a pinned zone. -/
theorem foldl_recallEntry (l : List Zone) (hl : l.Nodup) {a : State} (h : SameRecords s a)
    (hc : ∀ z ∈ l, planOf (a.cell z t) = planOf (s.cell z t)) :
    l.foldl (recallEntry t scene) a =
      markResult (.tenant t) (l.any (passedOver s scene)) .skipped (l.foldl (recallStep s t scene) a) := by
  induction l generalizing a with
  | nil => rfl
  | cons z rest ih =>
    obtain ⟨hz, hr⟩ := List.nodup_cons.mp hl
    have first := hc z List.mem_cons_self
    obtain ⟨records, others, _⟩ := recallStep_same (scene := scene) h first
    have later : ∀ x ∈ rest, planOf ((recallStep s t scene a z).cell x t) = planOf (s.cell x t) := fun x hx => by
      rw [others x t fun e => absurd (e ▸ hx) hz, hc x (List.mem_cons_of_mem _ hx)]
    rw [List.foldl_cons, List.foldl_cons, recallEntry_eq h first, List.any_cons]
    cases passedOver s scene z with
    | false => exact ih hr records later
    | true =>
      have marked := ih hr (a := setResult (.tenant t) .skipped (recallStep s t scene a z))
        ⟨records.pinned, records.service, records.tenants⟩ later
      refine marked.trans ?_
      rw [← setResult_foldl_recallStep]
      unfold markResult
      split
      · exact setResult_setResult _ _ _ _
      · rfl

end

/-- R45 to R49, R65: the close of an event leaves the homes, targets, sources and hold-offs. -/
theorem Closed.planOf {before s w : State} (h : Closed before s w) (z : Zone) (u : Tenant) :
    planOf (w.cell z u) = planOf (s.cell z u) := by
  obtain ⟨n, v, ⟨_, passed⟩, ports, _⟩ := h
  have e := planOf_congr passed.outside z u
  rw [ports]
  refine Eq.trans e ?_
  rw [iterate_admitNext_eq]
  rfl

theorem recallScene_range {b : Byte} {t : Tenant} (h : 3 < b.toNat) (s : State) :
    recallScene t b s = setResult (.tenant t) .range s := by
  simp only [recallScene, slotOf_none h]

theorem recallScene_empty {b : Byte} {t : Tenant} {k : Slot} {s : State} (h : b.toNat = k.val)
    (hk : tget (s.tenant t).scenes k = none) : recallScene t b s = setResult (.tenant t) .state s := by
  simp only [recallScene, slotOf_some h, sceneAt, hk]

theorem recallScene_filled {b : Byte} {t : Tenant} {k : Slot} {scene : Vector SceneEntry 48} {s : State}
    (h : b.toNat = k.val) (hk : tget (s.tenant t).scenes k = some scene) :
    recallScene t b s = finish s (allZones.foldl (recallEntry t scene) (setResult (.tenant t) .ok s)) := by
  simp only [recallScene, slotOf_some h, sceneAt, hk]

/-- R72: the result of a recall. -/
theorem recall_result {s a : State} {t : Tenant} {scene : Vector SceneEntry 48} (h : SameRecords s a)
    (hc : ∀ z, planOf (a.cell z t) = planOf (s.cell z t)) :
    allZones.foldl (recallEntry t scene) (setResult (.tenant t) .ok a) =
      allZones.foldl (recallStep s t scene)
        (setResult (.tenant t) (if ∃ z, tget scene z ≠ .keep ∧ (s.zone z).pinned = true then .skipped else .ok) a) := by
  have entries := foldl_recallEntry (scene := scene) (a := setResult (.tenant t) .ok a) allZones (List.nodup_finRange 48)
    ⟨h.pinned, h.service, h.tenants⟩ fun z _ => hc z
  have any : allZones.any (passedOver s scene) = true ↔ ∃ z, tget scene z ≠ .keep ∧ (s.zone z).pinned = true := by
    simp [passedOver, allZones, List.mem_finRange]
  rw [entries, markResult]
  split
  · next hs => rw [if_pos (any.mp hs), setResult_foldl_recallStep, setResult_setResult]
  · next hs => rw [if_neg fun e => hs (any.mpr e)]

end Sys2Proof.Machine

namespace Sys2Proof.Machine.Settled

/-- Settles O35: the refusals of `recallScene`; its entries and its close; and the cells after it. -/
theorem recallScene : Obligations.RecallScene := by
  intro s t b h ha
  have run : exec (.recallScene (.tenant t) (Burst.whole [b])) s =
      .next (Machine.recallScene t b (afterFixed (.tenant t) .recallScene 1 .incomplete s)) :=
    exec_tenant h ha (c := .recallScene) rfl rfl rfl
  refine ⟨fun hb => exec_result run (recallScene_range hb _), fun k hk =>
    ⟨fun he => exec_result run (recallScene_empty hk he), fun scene hf => ?_⟩⟩
  dsimp only
  have same : ∀ r, SameRecords s (afterFixed (.tenant t) .recallScene 1 r s) := fun _ => ⟨fun _ => rfl, fun _ => rfl, rfl⟩
  have filled := run.trans (congrArg _ (recallScene_filled hk hf))
  rw [recall_result (same _) fun _ => rfl, setResult_afterFixed] at filled
  have closed := finish_closed s (afterFixed (.tenant t) .recallScene 1 .incomplete s) (allZones.foldl (recallStep s t scene)
    (afterFixed (.tenant t) .recallScene 1
      (if ∃ z, tget scene z ≠ .keep ∧ (s.zone z).pinned = true then .skipped else .ok) s)) fun _ => rfl
  generalize finish _ _ = w at filled closed
  have plan := fun z u => (closed.planOf z u).trans
    (foldl_recallStep_plan allZones (List.nodup_finRange 48) (same _) (fun _ _ => rfl) z u)
  refine ⟨w, filled, closed, fun z d hz hp => ?_, fun z u hu => ?_⟩
  · have cell := plan z t
    rw [if_pos ⟨rfl, List.mem_finRange z⟩, recalled_dest hz hp] at cell
    by_cases hd : (s.cell z t).target = d
    · simp only [if_pos hd, planOf, Prod.mk.injEq] at cell
      obtain ⟨home, target, source, holdOff⟩ := cell
      simp [home, target, source, holdOff, hd]
    · simp only [if_neg hd, planOf, Prod.mk.injEq] at cell
      obtain ⟨home, target, source, holdOff⟩ := cell
      simp [home, target, source, holdOff, hd]
  · have kept : planOf (w.cell z u) = planOf (s.cell z u) := by
      rw [plan]
      split
      · next e =>
        obtain ⟨rfl, _⟩ := e
        exact recalled_kept (hu.resolve_left fun e => e rfl)
      · rfl
    simp only [planOf, Prod.mk.injEq] at kept
    obtain ⟨home, target, source, holdOff⟩ := kept
    exact ⟨target, home, source, holdOff⟩

end Sys2Proof.Machine.Settled

namespace Sys2Proof.Machine

/-! ### The part at reset -/

theorem tenant_reset (t : Tenant) : State.reset.tenant t = TenantRec.vacant := tget_replicate _ t

theorem zone_reset (z : Zone) : State.reset.zone z = ZoneRec.ofInvalidPage := tget_replicate _ z

theorem remote_reset (z : Zone) : State.reset.remote z = RemoteRec.unbound := tget_replicate _ z

theorem link_reset (f : FPort) : State.reset.link f = LinkRec.huntingAtStartUp := tget_replicate _ f

theorem tenantReader_reset (t : Tenant) : State.reset.reader (.tenant t) = none := tget_replicate _ t

/-- R148: at reset the venue's port has LOG, for the entries of the pages, and no other port. -/
theorem port_reset (p : Port) : State.reset.port p = { PortRec.atStartUp with log := decide (p = .venue) } := by
  cases p with
  | venue => rfl
  | tenant t =>
    revert t
    decide

theorem inService_reset (z : Zone) : inService State.reset z = false := by
  rw [inService, remote_reset]
  rfl

theorem admitted_reset (t : Tenant) : admitted State.reset t = false := by
  rw [admitted, tenant_reset]
  rfl

theorem logBounded_reset : LogBounded State.reset := by
  refine ⟨by decide, fun p r hr => ?_⟩
  cases p with
  | venue =>
    cases hr
    exact ⟨Nat.zero_le _, Nat.zero_le _⟩
  | tenant t => exact absurd ((tenantReader_reset t).symm.trans hr) (by simp)

theorem moveQueueBounded_reset : MoveQueueBounded State.reset :=
  ⟨Nat.zero_le _, fun _ => Nat.zero_le _, Nat.zero_le _, .nil, fun _ hm => nomatch hm⟩

/-- R45, R161: every cell is DARK, so none is pending. -/
theorem nothingHeldBack_reset : NothingHeldBack State.reset := by
  refine ⟨.inr fun t => .inr fun z => ?_, .inr fun m hm => nomatch hm⟩
  rw [pendingCell, cell_reset]
  rfl

/-- R25 to R31: out of service the effective limit is 0, and a tenant that is not admitted requests and gains nothing. -/
theorem allotmentFresh_reset : AllotmentFresh State.reset := by
  intro z
  have request : ∀ t, requestOf State.reset z t = 0 := fun t => by simp [requestOf, tenant_reset, TenantRec.vacant]
  have grant : ∀ e t, zoneGrant State.reset z e t = 0 := fun e t => by simp [zoneGrant, grantOf, admitted_reset]
  refine ⟨?_, fun t => ?_⟩
  · simp [effLimitOf, inService_reset, zone_reset, ZoneRec.ofInvalidPage]
  · rw [cell_reset, request, grant]
    exact ⟨rfl, rfl, rfl⟩

theorem planLaws_reset : PlanLaws State.reset := .ofDark rfl cell_reset fun t => by
  rw [port_reset]
  rfl

theorem quotaBounded_reset : QuotaBounded State.reset := by simp [QuotaBounded, quotaSum, sumTenants, admitted_reset]

theorem limitsBounded_reset : LimitsBounded State.reset := fun z => by
  rw [zone_reset]
  decide

theorem queuesBounded_reset : QueuesBounded State.reset := fun f => by
  rw [link_reset]
  decide

theorem bindingsDistinct_reset : BindingsDistinct State.reset := by
  refine ⟨fun y z b hy _ => ?_, fun _ _ e => nomatch e⟩
  rw [zone_reset] at hy
  cases hy

theorem logReasonsSound_reset : LogReasonsSound State.reset := by
  intro p
  change (State.reset.port p).log = logReasonOf State.reset p
  rw [port_reset]
  cases p with
  | venue => rfl
  | tenant t =>
    rw [logReasonOf, tenantReader_reset]
    rfl

end Sys2Proof.Machine

namespace Sys2Proof.Machine.Settled

/-- Settles O3: each law at reset. -/
theorem lawsHoldAtReset : Obligations.LawsHoldAtReset := by
  obtain ⟨_, settled, sound⟩ := planLaws_iff.mp planLaws_reset
  exact ⟨logBounded_reset, moveQueueBounded_reset, nothingHeldBack_reset, allotmentFresh_reset, settled, sound,
    quotaBounded_reset, limitsBounded_reset, settingsBounded_reset, queuesBounded_reset, bindingsDistinct_reset,
    logReasonsSound_reset⟩

/-- Settles O4: the records and settings of `State.reset`. -/
theorem resetValues : Obligations.ResetValues := by
  refine ⟨tenant_reset, fun z t => ?_, fun z => ⟨zone_reset z, remote_reset z⟩, rfl, rfl, rfl, rfl, tenantReader_reset, rfl,
    rfl, rfl, by decide, rfl, rfl, rfl, rfl, rfl, rfl, rfl, rfl, rfl, rfl, by decide, rfl, rfl, rfl, rfl, rfl, fun f => ?_,
    fun p => ?_⟩
  · rw [cell_reset]
    exact ⟨rfl, rfl, rfl, rfl, rfl, rfl⟩
  · rw [link_reset]
    exact ⟨rfl, rfl, rfl⟩
  · rw [port_reset]
    exact ⟨rfl, rfl, rfl, rfl, rfl, rfl⟩

end Sys2Proof.Machine.Settled

namespace Sys2Proof.Machine

/-! ### What the law of the allotment reads -/

/-- The results of one zone: its effective limit, and the request, grant and gain of each of its cells (R33). -/
structure Figures where
  limit : Nat
  request : Tenant → Nat
  grant : Tenant → Nat
  gain : Tenant → Nat

/-- The results held for a zone. -/
def heldFigures (s : State) (z : Zone) : Figures where
  limit := (s.zone z).effLimit
  request t := (s.cell z t).request
  grant t := (s.cell z t).grant
  gain t := (s.cell z t).gain

/-- R25 to R31: the results that the inputs of a zone give. -/
def dueFigures (s : State) (z : Zone) : Figures where
  limit := effLimitOf s z
  request := requestOf s z
  grant := zoneGrant s z (effLimitOf s z)
  gain t := gainOf (requestOf s z t) (zoneGrant s z (effLimitOf s z) t)

/-- What the law of the allotment reads of a state: for each zone, the results held and those that are due. -/
def allotment (s : State) (z : Zone) : Figures × Figures := (heldFigures s z, dueFigures s z)

theorem freshAt_iff {s : State} {z : Zone} : FreshAt s z ↔ heldFigures s z = dueFigures s z := by
  simp only [heldFigures, dueFigures, Figures.mk.injEq, funext_iff]
  constructor
  · rintro ⟨limit, cells⟩
    refine ⟨limit, fun t => (cells t).1, fun t => (cells t).2.1, fun t => ?_⟩
    obtain ⟨request, grant, gain⟩ := cells t
    rw [gain, request, grant]
  · rintro ⟨limit, request, grant, gain⟩
    exact ⟨limit, fun t => ⟨request t, grant t, by rw [gain, request, grant]⟩⟩

theorem FreshAt.congr {s t : State} {z : Zone} (h : FreshAt s z) (e : allotment t z = allotment s z) : FreshAt t z := by
  obtain ⟨held, due⟩ := Prod.mk.inj e
  rw [freshAt_iff, held, due]
  exact freshAt_iff.mp h

theorem AllotmentFresh.congr {s t : State} (h : AllotmentFresh s) (e : allotment t = allotment s) : AllotmentFresh t :=
  fun z => (h z).congr (congrFun e z)

/-- R34: the inputs of a pass, and the results it replaces. -/
theorem allotment_congr {s t : State} {z : Zone} (held : heldFigures t z = heldFigures s z)
    (limit : effLimitOf t z = effLimitOf s z) (requests : ∀ u, requestOf t z u = requestOf s z u)
    (shares : ∀ u, admitted t u = admitted s u ∧ (t.tenant u).quota = (s.tenant u).quota) :
    allotment t z = allotment s z := by
  have grants : zoneGrant t z = zoneGrant s z := by
    funext e u
    have adm : admitted t = admitted s := funext fun v => (shares v).1
    simp only [zoneGrant, adm, funext requests, (shares _).2]
  simp only [allotment, held, dueFigures, limit, funext requests, grants]

/-! ### Passes make the results fresh -/

/-- R33: after its pass, a zone holds the results that its inputs give; every other zone stays as it was. -/
theorem fresh_of_results {sel : Zone → Prop} {s r t : State} (hr : Results sel s r) (outside : outsidePasses t = outsidePasses s)
    (zones : t.zones = r.zones) (cells : t.cells = r.cells) (h : ∀ z, ¬ sel z → FreshAt s z) : AllotmentFresh t := by
  obtain ⟨_, selected, others⟩ := hr
  have due : ∀ z, dueFigures t z = dueFigures s z := fun z => by
    simp only [dueFigures, Figures.mk.injEq, funext_iff, effLimitOf_congr outside, requestOf_congr outside,
      zoneGrant_congr outside, implies_true, and_self]
  have zone : ∀ z, t.zone z = r.zone z := fun z => by rw [State.zone, zones, State.zone]
  have cell : ∀ z u, t.cell z u = r.cell z u := fun z u => by rw [State.cell, cells, State.cell]
  intro z
  rw [freshAt_iff, due]
  by_cases hz : sel z
  · obtain ⟨ez, ec⟩ := selected z hz
    simp only [heldFigures, zone, cell, ez, ec, dueFigures]
  · obtain ⟨ez, ec⟩ := others z hz
    simp only [heldFigures, zone, cell, ez, ec]
    exact freshAt_iff.mp (h z hz)

theorem fresh_of_passed {sel : Zone → Prop} {s t : State} (ht : Passed sel s t) (h : ∀ z, ¬ sel z → FreshAt s z) :
    AllotmentFresh t := by
  have outside := ht.outside
  obtain ⟨r, zs, hr, rfl, _⟩ := ht
  refine fresh_of_results hr outside ?_ ?_ h <;> rw [foldl_queueSet_eq]

/-- R34: the passes of one event, where every zone that it leaves out is fresh. -/
theorem fresh_passes {sel : Zone → Bool} {s : State} (h : ∀ z, sel z = false → FreshAt s z) :
    AllotmentFresh (passes sel s) := fresh_of_passed (passes_passed sel s) fun z hz => h z (by simpa using hz)

theorem fresh_passAll (s : State) : AllotmentFresh (passAll s) := fresh_passes fun _ e => nomatch e

/-- R33: one pass, where every other zone is fresh. -/
theorem fresh_pass {z : Zone} {s : State} (h : ∀ y, z ≠ y → FreshAt s y) : AllotmentFresh (pass z s) :=
  fresh_of_passed (pass_passed z s) fun y hy => h y (Ne.symm hy)

/-- R122, R130: the results of one zone with a SET queued for it, where every other zone is fresh. -/
theorem fresh_results_set {z : Zone} {s : State} (h : ∀ y, z ≠ y → FreshAt s y) :
    AllotmentFresh (queueSet z (passResults z s)) :=
  fresh_of_results (passResults_results z s) (by rw [outsidePasses_queueSet, outsidePasses_passResults])
    (queueSet_zones z _) (queueSet_cells z _) fun y hy => h y (Ne.symm hy)

/-! ### The move of a cell -/

/-- R27: what a request reads of a cell's move: the two ends of one that is RAMPING. -/
def rampEnds (s : State) (z : Zone) (t : Tenant) : Option (Dest × Dest) :=
  (moveAt s z t).bind fun m => if m.state = .ramping then some (m.src, m.dst) else none

/-- R27: a request, by the ends of the cell's RAMPING move. -/
theorem requestOf_eq (s : State) (z : Zone) (t : Tenant) :
    requestOf s z t =
      if (s.tenant t).state = .active then
        match rampEnds s z t with
        | some (a, b) => max (levelOf (s.tenant t) a) (levelOf (s.tenant t) b)
        | none => levelOf (s.tenant t) (s.cell z t).home
      else 0 := by
  unfold requestOf rampEnds
  by_cases active : (s.tenant t).state = .active
  · simp only [active, bne_self_eq_false, Bool.false_eq_true, if_false, if_true]
    cases moveAt s z t with
    | none => rfl
    | some m =>
      dsimp only [Option.bind_some]
      split <;> rfl
  · simp [active]

/-- The move of a cell is a move of its zone. -/
theorem moveAt_eq_find (s : State) (z : Zone) (t : Tenant) :
    moveAt s z t = (zoneMoves s z).find? fun m => m.tenant == t := by
  simp only [moveAt, zoneMoves, List.find?_filter, Bool.decide_and, Bool.decide_eq_true]

theorem moveAt_zone_congr {s t : State} {z : Zone} (h : zoneMoves t z = zoneMoves s z) (u : Tenant) :
    moveAt t z u = moveAt s z u := by rw [moveAt_eq_find, h, moveAt_eq_find]

theorem rampEnds_congr {s t : State} {z : Zone} {u : Tenant} (h : moveAt t z u = moveAt s z u) :
    rampEnds t z u = rampEnds s z u := by rw [rampEnds, h, rampEnds]

theorem moveAt_modMove (s : State) (z : Zone) (t : Tenant) (f : Move → Move)
    (hf : ∀ m, moveKey m = (z, t) → moveKey (f m) = (z, t)) (y : Zone) (u : Tenant) :
    moveAt (s.modMove z t f) y u = if z = y ∧ t = u then (moveAt s y u).map f else moveAt s y u := by
  have same : ((fun m : Move => m.zone == y && m.tenant == u) ∘ fun m => if m.zone == z && m.tenant == t then f m else m) =
      fun m => m.zone == y && m.tenant == u := by
    funext m
    rw [Function.comp_apply]
    split
    · next e =>
      simp only [Bool.and_eq_true, beq_iff_eq] at e
      have key := hf m (by rw [moveKey, e.1, e.2])
      rw [moveKey, Prod.mk.injEq] at key
      rw [key.1, key.2, e.1, e.2]
    · rfl
  rw [moveAt, State.modMove, List.find?_map, same, ← moveAt]
  rcases e : moveAt s y u with _ | m
  · simp
  · obtain ⟨_, mz, mt⟩ := moveAt_some e
    by_cases k : z = y ∧ t = u
    · simp [k, mz, mt]
    · rw [if_neg k, Option.map_some, if_neg]
      rintro e
      simp only [Bool.and_eq_true, beq_iff_eq, mz, mt] at e
      exact k ⟨e.1.symm, e.2.symm⟩

theorem moveAt_dropMove (s : State) (z : Zone) (t : Tenant) (y : Zone) (u : Tenant) :
    moveAt (s.dropMove z t) y u = if z = y ∧ t = u then none else moveAt s y u := by
  split
  · next k =>
    obtain ⟨rfl, rfl⟩ := k
    rw [moveAt_none]
    intro hk
    obtain ⟨m, hm, e⟩ := List.mem_map.mp hk
    rw [moveKey, Prod.mk.injEq] at e
    simp [State.dropMove, e] at hm
  · next k =>
    rw [moveAt, State.dropMove, List.find?_filter, moveAt]
    congr 1
    funext m
    refine Bool.eq_iff_iff.mpr ?_
    simp only [decide_eq_true_eq, Bool.and_eq_true, beq_iff_eq, Bool.not_eq_true', and_iff_right_iff_imp]
    rintro ⟨rfl, rfl⟩
    have apart : ¬ (m.zone = z ∧ m.tenant = t) := fun e => k ⟨e.1.symm, e.2.symm⟩
    simpa using apart

/-! ### What the inputs read of each record -/

/-- R25 to R33: the figures of a tenant's record that the allotment reads. -/
abbrev tenantFigures (r : TenantRec) : TenantState × Nat × Vector Nat 6 × Vector Bool 6 :=
  (r.state, r.quota, r.levels, r.presence)

/-- R23, R25: the figures of a zone's record that the allotment reads, and the result it holds. -/
abbrev zoneFigures (r : ZoneRec) : ZoneClass × Nat × Nat := (r.cls, r.live, r.effLimit)

/-- R27: the figure of a cell that the allotment reads, and the results it holds. -/
abbrev cellFigures (c : Cell) : Dest × Nat × Nat × Nat := (c.home, c.request, c.grant, c.gain)

/-- R25, R26: the figures of a remote's record that the allotment reads. -/
abbrev remoteFigures (r : RemoteRec) : RemoteState × (Fin 4 → Bool) := (r.state, fun i => (tget r.alarms i).active)

/-- R23, R26: the settings of the venue that the allotment reads. -/
abbrev venueFigures (s : State) : VenueMode × Vector Bool 4 × Vector Nat 4 := (s.venueMode, s.standbyDark, s.derate)

theorem heldFigures_congr {s t : State} {z : Zone} (zone : zoneFigures (t.zone z) = zoneFigures (s.zone z))
    (cells : ∀ u, cellFigures (t.cell z u) = cellFigures (s.cell z u)) : heldFigures t z = heldFigures s z := by
  simp only [Prod.mk.injEq] at zone cells
  simp only [heldFigures, zone, cells]

theorem dimmed_congr {s t : State} {z : Zone} (mode : t.venueMode = s.venueMode) (dark : t.standbyDark = s.standbyDark)
    (cls : (t.zone z).cls = (s.zone z).cls) : dimmed t z = dimmed s z := by
  simp only [dimmed, mode, dark, cls]

theorem requestOf_figures {s t : State} {z : Zone} {u : Tenant}
    (tenant : tenantFigures (t.tenant u) = tenantFigures (s.tenant u)) (home : (t.cell z u).home = (s.cell z u).home)
    (move : rampEnds t z u = rampEnds s z u) : requestOf t z u = requestOf s z u := by
  simp only [Prod.mk.injEq] at tenant
  obtain ⟨state, _, levels, presence⟩ := tenant
  have level : ∀ d, levelOf (t.tenant u) d = levelOf (s.tenant u) d := fun d => by
    cases d with
    | dark => rfl
    | sector k => simp only [levelOf, levels, presence]
  simp only [requestOf_eq, state, move, level, home]

theorem effLimitOf_figures {s t : State} {z : Zone} (venue : venueFigures t = venueFigures s)
    (zone : zoneFigures (t.zone z) = zoneFigures (s.zone z))
    (remote : remoteFigures (t.remote z) = remoteFigures (s.remote z)) : effLimitOf t z = effLimitOf s z := by
  simp only [Prod.mk.injEq] at venue zone remote
  obtain ⟨mode, dark, derate⟩ := venue
  obtain ⟨cls, live, _⟩ := zone
  obtain ⟨state, alarms⟩ := remote
  have factor : derateFactor t z = derateFactor s z := by
    simp only [derateFactor, derate, fun i => congrFun alarms i]
  have service : inService t z = inService s z := by
    rw [inService, state]
    rfl
  simp only [effLimitOf, service, dimmed_congr mode dark cls, factor, live]

theorem shares_figures {s t : State} {u : Tenant} (tenant : tenantFigures (t.tenant u) = tenantFigures (s.tenant u)) :
    admitted t u = admitted s u ∧ (t.tenant u).quota = (s.tenant u).quota := by
  simp only [Prod.mk.injEq] at tenant
  obtain ⟨state, quota, _⟩ := tenant
  exact ⟨by simp only [admitted, state], quota⟩

/-- A zone whose figures are as they were. -/
theorem allotment_of_figures {s t : State} {z : Zone} (venue : venueFigures t = venueFigures s)
    (tenants : ∀ u, tenantFigures (t.tenant u) = tenantFigures (s.tenant u))
    (zone : zoneFigures (t.zone z) = zoneFigures (s.zone z))
    (cells : ∀ u, cellFigures (t.cell z u) = cellFigures (s.cell z u))
    (remote : remoteFigures (t.remote z) = remoteFigures (s.remote z))
    (moves : ∀ u, rampEnds t z u = rampEnds s z u) : allotment t z = allotment s z :=
  allotment_congr (heldFigures_congr zone cells) (effLimitOf_figures venue zone remote)
    (fun u => requestOf_figures (tenants u) (congrArg Prod.fst (cells u)) (moves u)) fun u => shares_figures (tenants u)

end Sys2Proof.Machine

namespace Sys2Proof.Machine

/-! ### Changes that the law of the allotment does not see -/

@[simp] theorem allotment_modPort (s : State) (p : Port) (f : PortRec → PortRec) : allotment (s.modPort p f) = allotment s := rfl

@[simp] theorem allotment_modLink (s : State) (f : FPort) (g : LinkRec → LinkRec) : allotment (s.modLink f g) = allotment s := rfl

theorem allotment_modTenant {s : State} {t : Tenant} {f : TenantRec → TenantRec}
    (hf : tenantFigures (f (s.tenant t)) = tenantFigures (s.tenant t)) : allotment (s.modTenant t f) = allotment s := by
  funext z
  refine allotment_of_figures rfl (fun u => ?_) rfl (fun _ => rfl) rfl fun _ => rfl
  rw [State.tenant_modTenant]
  split
  · next e => exact e ▸ hf
  · rfl

theorem allotment_modZone {s : State} {z : Zone} {f : ZoneRec → ZoneRec}
    (hf : zoneFigures (f (s.zone z)) = zoneFigures (s.zone z)) : allotment (s.modZone z f) = allotment s := by
  funext y
  refine allotment_of_figures rfl (fun _ => rfl) ?_ (fun _ => rfl) rfl fun _ => rfl
  rw [State.zone_modZone]
  split
  · next e => exact e ▸ hf
  · rfl

theorem State.remote_modRemote (s : State) (z y : Zone) (g : RemoteRec → RemoteRec) :
    (s.modRemote z g).remote y = if z = y then g (s.remote y) else s.remote y := tget_tmod _ _ _ _

theorem allotment_modRemote {s : State} {z : Zone} {g : RemoteRec → RemoteRec}
    (hg : ∀ r, remoteFigures (g r) = remoteFigures r) : allotment (s.modRemote z g) = allotment s := by
  funext y
  refine allotment_of_figures rfl (fun _ => rfl) rfl (fun _ => rfl) ?_ fun _ => rfl
  rw [State.remote_modRemote]
  split
  · exact hg _
  · rfl

theorem allotment_cells {s t : State} (e : t = { s with cells := t.cells })
    (h : ∀ z u, cellFigures (t.cell z u) = cellFigures (s.cell z u)) : allotment t = allotment s := by
  funext z
  refine allotment_of_figures ?_ (fun u => ?_) ?_ (h z) ?_ fun u => ?_ <;> rw [e] <;> rfl

theorem allotment_modCell {s : State} {z : Zone} {t : Tenant} {f : Cell → Cell}
    (hf : cellFigures (f (s.cell z t)) = cellFigures (s.cell z t)) : allotment (s.modCell z t f) = allotment s := by
  refine allotment_cells rfl fun y u => ?_
  rw [State.cell_modCell]
  split
  · next e =>
    obtain ⟨rfl, rfl⟩ := e
    exact hf
  · rfl

/-- Moves, the admission position and the ramp timer alone have changed, and no RAMPING move of the zone. -/
theorem allotment_moves {s t : State} {z : Zone}
    (e : t = { s with moves := t.moves, admitPos := t.admitPos, rampTimer := t.rampTimer })
    (h : ∀ u, rampEnds t z u = rampEnds s z u) : allotment t z = allotment s z := by
  refine allotment_of_figures ?_ (fun u => ?_) ?_ (fun u => ?_) ?_ h <;> rw [e] <;> rfl

@[simp] theorem allotment_appendLog (e : Entry) (s : State) : allotment (appendLog e s) = allotment s := by
  rw [appendLog_eq]
  rfl

theorem allotment_readLog (p : Port) (r : Reader) (s : State) : allotment (readLog p r s).2 = allotment s := by
  obtain ⟨n, e, _⟩ := readLog_eq p r s
  rw [e, setReader_eq]
  rfl

@[simp] theorem allotment_startQueued (f : FPort) (s : State) : allotment (startQueued f s) = allotment s := by
  rw [startQueued_eq]
  rfl

@[simp] theorem allotment_queueSet (z : Zone) (s : State) : allotment (queueSet z s) = allotment s := by
  have outside := outsidePasses_queueSet z s
  funext y
  refine allotment_congr ?_ (effLimitOf_congr outside y) (requestOf_congr outside y) fun u => ?_
  · rw [queueSet_eq]
    rfl
  · rw [queueSet_eq]
    exact ⟨rfl, rfl⟩

@[simp] theorem allotment_endFromOutside (p : Port) (s : State) : allotment (endFromOutside p s) = allotment s := by
  rw [endFromOutside_eq]
  rfl

/-! ### Moves that no RAMPING end leaves -/

theorem rampEnds_none {s : State} {z : Zone} {t : Tenant} (h : ∀ m, moveAt s z t = some m → m.state = .waiting) :
    rampEnds s z t = none := by
  unfold rampEnds
  rcases e : moveAt s z t with _ | m
  · rfl
  · simp [h m e]

/-- R45: an admitted move is WAITING, and its cell had no move. -/
@[simp] theorem allotment_admitNext (s : State) : allotment (admitNext s) = allotment s := by
  rcases e : nextAdmission s with _ | ⟨t, z⟩
  · rw [admitNext_none e]
  · have free : moveAt s z t = none := moveAt_none.mpr (pendingCell_iff.mp (nextAdmission_pending e)).2
    funext y
    rw [admitNext_some e]
    refine allotment_moves rfl fun u => ?_
    have found : moveAt { s with moves := s.moves ++ [newMove s z t], admitPos := t } y u =
        (moveAt s y u).or ([newMove s z t].find? fun m => m.zone == y && m.tenant == u) := List.find?_append
    rcases hm : moveAt s y u with _ | m
    · rw [rampEnds_none (s := s) (by simp [hm])]
      refine rampEnds_none fun n hn => ?_
      rw [found, hm, Option.none_or] at hn
      rw [List.mem_singleton.mp (List.mem_of_find?_eq_some hn)]
      rfl
    · exact rampEnds_congr (by rw [found, hm, Option.some_or])

@[simp] theorem allotment_admitPending (n : Nat) (s : State) : allotment (admitPending n s) = allotment s := by
  induction n generalizing s with
  | zero => rfl
  | succ n ih =>
    unfold admitPending
    split
    · rfl
    · rw [ih, allotment_admitNext]

/-- R52: an advance changes weights alone. -/
theorem allotment_advance (s : State) (step : Nat) (timer : Timer) :
    allotment { s with moves := s.moves.map (advanceMove step), rampTimer := timer } = allotment s := by
  funext z
  refine allotment_moves rfl fun u => ?_
  have same : ((fun m : Move => m.zone == z && m.tenant == u) ∘ advanceMove step) = fun m => m.zone == z && m.tenant == u := by
    funext m
    obtain ⟨w, e, _⟩ := advanceMove_eq step m
    rw [Function.comp_apply, e]
  have found : moveAt { s with moves := s.moves.map (advanceMove step), rampTimer := timer } z u =
      (moveAt s z u).map (advanceMove step) := by rw [moveAt, List.find?_map, same, ← moveAt]
  rw [rampEnds, found, rampEnds]
  cases moveAt s z u with
  | none => rfl
  | some m =>
    obtain ⟨w, e, _⟩ := advanceMove_eq step m
    rw [Option.map_some, e]
    rfl

/-- R58, R59: a RAMPING move keeps its to sector. -/
theorem retargeted_dst {m n : Move} {d : Dest} {src : Origin} (h : retargeted m d src = some n) (hr : m.state ≠ .waiting) :
    n.dst = m.dst := by
  rw [retargeted_ramping hr, Option.some.injEq] at h
  rw [← h]
  split
  · rfl
  · split <;> rfl

/-- R57 to R59: the retarget table keeps the ends of a RAMPING move, and removes WAITING moves alone. -/
theorem allotment_retargetMove {s : State} {z : Zone} {t : Tenant} {m : Move} {d : Dest} {src : Origin}
    (hm : moveAt s z t = some m) : allotment (retargetMove z t m d src s) = allotment s := by
  funext y
  obtain ⟨_, mz, mt⟩ := moveAt_some hm
  unfold retargetMove
  split
  · next hr =>
    have waiting : m.state = .waiting := by
      by_contra hw
      rw [retargeted_ramping hw] at hr
      cases hr
    refine allotment_moves rfl fun u => ?_
    by_cases k : z = y ∧ t = u
    · obtain ⟨rfl, rfl⟩ := k
      rw [rampEnds_none (s := s) (by rw [hm]; rintro n ⟨⟩; exact waiting), rampEnds, moveAt_dropMove, if_pos ⟨rfl, rfl⟩]
      rfl
    · exact rampEnds_congr (by rw [moveAt_dropMove, if_neg k])
  · next n hn =>
    obtain ⟨nz, nt, nsrc, nstate, _, ndst, _⟩ := retargeted_some hn
    refine allotment_moves rfl fun u => ?_
    have keyed : ∀ k : Move, moveKey k = (z, t) → moveKey n = (z, t) := fun _ _ => by rw [moveKey, nz, nt, mz, mt]
    have found := moveAt_modMove s z t (fun _ => n) keyed y u
    by_cases k : z = y ∧ t = u
    · obtain ⟨rfl, rfl⟩ := k
      rw [rampEnds, found, if_pos ⟨rfl, rfl⟩, rampEnds, hm, Option.map_some, Option.bind_some, Option.bind_some, nstate]
      split
      · next hr => rw [nsrc, retargeted_dst hn (by simp [hr])]
      · rfl
    · exact rampEnds_congr (by rw [found, if_neg k])

/-- Where a cell has one move at most, moves that WAIT can leave the queue. -/
theorem rampEnds_filter {s : State} (keys : (s.moves.map moveKey).Nodup) {keep : Move → Bool}
    (hk : ∀ m ∈ s.moves, keep m = false → m.state = .waiting) (z : Zone) (t : Tenant) :
    rampEnds { s with moves := s.moves.filter keep } z t = rampEnds s z t := by
  have kept : ((s.moves.filter keep).map moveKey).Nodup := keys.sublist (List.filter_sublist.map _)
  rcases hm : moveAt s z t with _ | m
  · rw [rampEnds_none (s := s) (by simp [hm])]
    refine rampEnds_none fun n hn => ?_
    obtain ⟨mem, nz, nt⟩ := moveAt_some hn
    have := List.mem_map_of_mem (f := moveKey) (List.mem_filter.mp mem).1
    rw [moveKey, nz, nt] at this
    exact absurd this (moveAt_none.mp hm)
  · obtain ⟨mem, mz, mt⟩ := moveAt_some hm
    cases h : keep m with
    | true =>
      have found := moveAt_of_mem (s := { s with moves := s.moves.filter keep }) kept (List.mem_filter.mpr ⟨mem, h⟩)
      rw [mz, mt] at found
      exact rampEnds_congr (found.trans hm.symm)
    | false =>
      rw [rampEnds_none (s := s) (by rw [hm]; rintro n ⟨⟩; exact hk m mem h)]
      refine rampEnds_none fun n hn => ?_
      obtain ⟨nmem, nz, nt⟩ := moveAt_some hn
      obtain rfl : n = m := move_unique keys (List.mem_filter.mp nmem).1 mem (by rw [moveKey, nz, nt, moveKey, mz, mt])
      exact hk n mem h

/-- R12: a pin changes targets, and removes WAITING moves. -/
theorem allotment_pinRecord {s : State} (keys : (s.moves.map moveKey).Nodup) (z : Zone) :
    allotment (pinRecord z s) = allotment s := by
  funext y
  refine allotment_of_figures rfl (fun _ => rfl) ?_ (fun u => ?_) rfl fun u => ?_
  · have zone : (pinRecord z s).zone y = if z = y then { s.zone y with pinned := true } else s.zone y :=
      State.zone_modZone _ z y _
    rw [zone]
    split <;> rfl
  · rw [pinRecord_cell]
    split <;> rfl
  · refine rampEnds_filter (s := s) keys (keep := fun m => !(m.zone == z && m.state == .waiting)) (fun m _ hm => ?_) y u
    simp only [Bool.not_eq_false', Bool.and_eq_true, beq_iff_eq] at hm
    exact hm.2

end Sys2Proof.Machine

namespace Sys2Proof.Machine

/-! ### Changes at one zone -/

/-- The two states give the law of the allotment the same figures at every zone but `z`. -/
def AgreeOff (z : Zone) (s t : State) : Prop := ∀ y, z ≠ y → allotment t y = allotment s y

theorem agreeOff_of_eq {z : Zone} {s t : State} (e : allotment t = allotment s) : AgreeOff z s t := fun y _ => congrFun e y

theorem AgreeOff.trans {z : Zone} {s t u : State} (h : AgreeOff z s t) (k : AgreeOff z t u) : AgreeOff z s u :=
  fun y hy => (k y hy).trans (h y hy)

/-- The records and moves of every other zone are as they were. -/
theorem agreeOff_of_zone {z : Zone} {s t : State}
    (e : t = { s with zones := t.zones, cells := t.cells, moves := t.moves, remotes := t.remotes })
    (zone : ∀ y, z ≠ y → t.zone y = s.zone y) (cells : ∀ y, z ≠ y → ∀ u, t.cell y u = s.cell y u)
    (remote : ∀ y, z ≠ y → t.remote y = s.remote y) (moves : ∀ y, z ≠ y → zoneMoves t y = zoneMoves s y) :
    AgreeOff z s t := by
  intro y hy
  refine allotment_of_figures ?_ (fun u => ?_) (by rw [zone y hy]) (fun u => by rw [cells y hy]) (by rw [remote y hy])
    fun u => rampEnds_congr (moveAt_zone_congr (moves y hy) u)
  · rw [e]
  · rw [e]
    rfl

theorem agreeOff_modZone (s : State) (z : Zone) (f : ZoneRec → ZoneRec) : AgreeOff z s (s.modZone z f) :=
  agreeOff_of_zone rfl (fun y hy => State.zone_modZone_ne s z y f hy) (fun _ _ _ => rfl) (fun _ _ => rfl) fun _ _ => rfl

theorem agreeOff_modRemote (s : State) (z : Zone) (g : RemoteRec → RemoteRec) : AgreeOff z s (s.modRemote z g) :=
  agreeOff_of_zone rfl (fun _ _ => rfl) (fun _ _ _ => rfl) (fun y hy => State.remote_modRemote_ne s z y g hy) fun _ _ => rfl

theorem agreeOff_modCell (s : State) (z : Zone) (t : Tenant) (f : Cell → Cell) : AgreeOff z s (s.modCell z t f) :=
  agreeOff_of_zone rfl (fun _ _ => rfl) (fun y hy u => by rw [State.cell_modCell, if_neg fun e => hy e.1]) (fun _ _ => rfl)
    fun _ _ => rfl

/-- The moves of a zone, where none of them has left the queue. -/
theorem zoneMoves_filter {s t : State} {keep : Move → Bool} {y : Zone} (h : t.moves = s.moves.filter keep)
    (hk : ∀ m, m.zone = y → keep m = true) : zoneMoves t y = zoneMoves s y := by
  rw [zoneMoves, h, List.filter_filter, zoneMoves]
  refine List.filter_congr fun m _ => ?_
  by_cases e : m.zone = y
  · simp [hk m e]
  · simp [e]

theorem agreeOff_outage (z : Zone) (s : State) : AgreeOff z s (outage z s) :=
  agreeOff_of_zone rfl (fun _ _ => rfl) (fun y hy u => by rw [outage_cell, if_neg hy]) (fun _ _ => rfl) fun _ hy =>
    zoneMoves_filter (outage_moves z s) fun m e => by simpa [e] using Ne.symm hy

/-- R53, R54: a completion changes its own zone. -/
theorem agreeOff_completeMove (m : Move) (s : State) : AgreeOff m.zone s (completeMove m s) := by
  have dropped : AgreeOff m.zone s (s.dropMove m.zone m.tenant) :=
    agreeOff_of_zone rfl (fun _ _ => rfl) (fun _ _ _ => rfl) (fun _ _ => rfl) fun y hy =>
      zoneMoves_filter rfl fun n e => by simp [e, Ne.symm hy]
  unfold completeMove
  dsimp only
  split
  · exact dropped.trans (agreeOff_modCell _ _ _ _)
  · exact dropped

variable {s t : State} {z : Zone}

/-- R33: the pass of the one zone at which a fresh state has changed. -/
theorem fresh_pass_of (h : AllotmentFresh s) (e : AgreeOff z s t) : AllotmentFresh (pass z t) :=
  fresh_pass fun y hy => (h y).congr (e y hy)

theorem fresh_results_set_of (h : AllotmentFresh s) (e : AgreeOff z s t) : AllotmentFresh (queueSet z (passResults z t)) :=
  fresh_results_set fun y hy => (h y).congr (e y hy)

theorem fresh_modPort {p : Port} {f : PortRec → PortRec} (h : AllotmentFresh s) : AllotmentFresh (s.modPort p f) :=
  h.congr rfl

theorem fresh_setResult {p : Port} {r : Result} (h : AllotmentFresh s) : AllotmentFresh (setResult p r s) := h.congr rfl

theorem fresh_appendLog {e : Entry} (h : AllotmentFresh s) : AllotmentFresh (appendLog e s) :=
  h.congr (allotment_appendLog e s)

/-! ### The close of an event -/

/-- R49: a pass at every zone of which a move starts RAMPING. -/
theorem fresh_grantAndPass (h : AllotmentFresh s) : AllotmentFresh (grantAndPass s) := by
  obtain ⟨e, _⟩ := grantSlots_started 8 s
  refine fresh_passes fun y hy => (h y).congr ?_
  have same : zoneMoves (grantSlots 8 s) y = zoneMoves s y := by simpa using hy
  generalize grantSlots 8 s = g at e same
  exact allotment_moves (by rw [e]) fun u => rampEnds_congr (moveAt_zone_congr same u)

theorem fresh_settle (h : AllotmentFresh s) : AllotmentFresh (settle s) :=
  fresh_grantAndPass (h.congr (allotment_admitPending 32 s))

theorem fresh_finish (before : State) (h : AllotmentFresh s) : AllotmentFresh (finish before s) := by
  have raised : ∀ x, allotment (raiseIdle before x) = allotment x := fun x => by
    rw [raiseIdle_eq]
    rfl
  unfold finish
  split
  · exact (fresh_settle h).congr (raised _)
  · exact h.congr (raised _)

/-! ### Targets and the ramp timer -/

/-- R15: a target changes no request in service; out of service its pass follows a changed home. -/
theorem fresh_setTarget {t : Tenant} {d : Dest} {src : Origin} (h : AllotmentFresh s) :
    AllotmentFresh (setTarget z t d src s) := by
  unfold setTarget
  split
  · exact h
  · split
    · dsimp only
      split
      · next e => exact h.congr (allotment_modCell (by rw [← e]))
      · exact fresh_pass_of h (agreeOff_modCell s z t _)
    · split
      · exact h
      · have set : AllotmentFresh (s.modCell z t fun c => { c with target := d, source := src }) :=
          h.congr (allotment_modCell rfl)
        dsimp only
        split
        · next m hm =>
          exact set.congr (allotment_retargetMove (s := s.modCell z t fun c => { c with target := d, source := src }) hm)
        · exact set

/-- R53, R54: the completions change the zones of the completed moves. -/
theorem allotment_completions (l : List Move) {y : Zone} (hy : ∀ m ∈ l, m.zone ≠ y) (s : State) :
    allotment (l.foldl (fun s m => completeMove m s) s) y = allotment s y := by
  induction l generalizing s with
  | nil => rfl
  | cons m rest ih =>
    rw [List.foldl_cons, ih fun n hn => hy n (List.mem_cons_of_mem _ hn)]
    exact agreeOff_completeMove m s y (hy m List.mem_cons_self)

/-- R52 to R55: a pass at every zone of a completed move. -/
theorem fresh_rampExpiry (h : AllotmentFresh s) : AllotmentFresh (rampExpiry s) := by
  have advanced := h.congr (allotment_advance s s.rampStep ⟨true, s.rampTick⟩)
  unfold rampExpiry
  split
  · exact h
  · refine fresh_finish s (fresh_passes fun y hy => (advanced y).congr (allotment_completions _ (fun m hm e => ?_) _))
    exact List.any_eq_false.mp hy m hm (by simp [e])

/-! ### Settings of the venue -/

/-- R23: a pass at every zone whose dimmed flag changes. -/
theorem fresh_passDimmed {t : State} (e : t = { s with venueMode := t.venueMode, standbyDark := t.standbyDark, wakeCount := t.wakeCount })
    (h : AllotmentFresh s) : AllotmentFresh (passDimmed s t) := by
  refine fresh_passes fun y hy => (h y).congr ?_
  have dim : dimmed t y = dimmed s y := (bne_eq_false_iff_eq.mp hy).symm
  have service : inService t y = inService s y := by rw [e]; rfl
  have factor : derateFactor t y = derateFactor s y := by rw [e]; rfl
  have zone : t.zone y = s.zone y := by rw [e]; rfl
  refine allotment_congr ?_ (by simp only [effLimitOf, dim, service, factor, zone]) (fun u => ?_) fun u => ?_
  · rw [e]
    rfl
  · rw [e]
    rfl
  · rw [e]
    exact ⟨rfl, rfl⟩

theorem fresh_setMode {m : VenueMode} (h : AllotmentFresh s) : AllotmentFresh (setMode m s) :=
  fresh_passDimmed (t := { s with venueMode := m, wakeCount := 0 }) rfl h

/-- R126: a derate setting enters the factor of the zones where its class is active. -/
theorem derateFactor_inactive {c : AlarmClass} {v : Nat} (h : (alarmAt s z c).active = false) :
    derateFactor { s with derate := tset s.derate (alarmIdx c) v } z = derateFactor s z := by
  have step : ∀ (d : Nat) (x : AlarmClass),
      (if (alarmAt s z x).active then min d (tget (tset s.derate (alarmIdx c) v) (alarmIdx x)) else d) =
        if (alarmAt s z x).active then min d (tget s.derate (alarmIdx x)) else d := fun d x => by
    by_cases e : alarmIdx c = alarmIdx x
    · have same : alarmAt s z x = alarmAt s z c := by rw [alarmAt, ← e, alarmAt]
      rw [same, h]
      rfl
    · rw [tget_tset_ne _ _ _ _ e]
  exact congrArg (fun f => allAlarms.foldl f 32) (funext fun d => funext fun x => step d x)

theorem fresh_storeDerate {c : AlarmClass} {v : Nat} (h : AllotmentFresh s) : AllotmentFresh (storeDerate c v s) := by
  unfold storeDerate
  dsimp only
  split
  · next e =>
    rw [← e, tset_tget]
    exact h
  · refine fresh_passes fun y hy => (h y).congr (allotment_congr rfl ?_ (fun _ => rfl) fun _ => ⟨rfl, rfl⟩)
    have inactive : (alarmAt s y c).active = false := hy
    have factor := derateFactor_inactive (v := v) inactive
    unfold effLimitOf
    rw [factor]
    rfl

/-- R10: a changed live limit has its pass. -/
theorem fresh_storeLive {v : Nat} (h : AllotmentFresh s) : AllotmentFresh (storeLive z v s) := by
  unfold storeLive
  dsimp only
  split
  · next e => exact h.congr (allotment_modZone (by rw [← e]))
  · exact fresh_pass_of h (agreeOff_modZone s z _)

/-! ### Levels and presence -/

/-- R7, R8: a change of one sector of a tenant enters the requests of the zones that use the sector. -/
theorem allotment_unused {t : Tenant} {k : Sector} {f : TenantRec → TenantRec} {y : Zone}
    (hf : (f (s.tenant t)).state = (s.tenant t).state ∧ (f (s.tenant t)).quota = (s.tenant t).quota)
    (hd : ∀ d, d ≠ .sector k → levelOf (f (s.tenant t)) d = levelOf (s.tenant t) d) (hu : usesSector s t k y = false) :
    allotment (s.modTenant t f) y = allotment s y := by
  have tenant : ∀ u, t ≠ u → (s.modTenant t f).tenant u = s.tenant u := fun u hu => State.tenant_modTenant_ne s t u f hu
  have unused : ¬ usesSector s t k y = true := by simp [hu]
  rw [usesSector_iff, not_or] at unused
  obtain ⟨home, ends⟩ := unused
  refine allotment_congr rfl rfl (fun u => ?_) fun u => ?_
  · by_cases e : t = u
    · subst e
      have same : rampEnds (s.modTenant t f) y t = rampEnds s y t := rfl
      rw [requestOf_eq, requestOf_eq, same, State.tenant_modTenant_same, hf.1, State.cell_modTenant, hd _ home]
      rcases hr : rampEnds s y t with _ | ⟨a, b⟩
      · rfl
      · obtain ⟨m, hm, hab⟩ := Option.bind_eq_some_iff.mp hr
        split at hab
        · next ramping =>
          obtain ⟨rfl, rfl⟩ := Prod.mk.inj (Option.some.inj hab)
          dsimp only
          rw [hd m.src fun e => ends ⟨m, hm, ramping, .inl e⟩, hd m.dst fun e => ends ⟨m, hm, ramping, .inr e⟩]
        · cases hab
    · exact requestOf_figures (by rw [tenant u e]) rfl rfl
  · by_cases e : t = u
    · subst e
      rw [admitted, State.tenant_modTenant_same, hf.1, hf.2, admitted]
      exact ⟨rfl, rfl⟩
    · rw [admitted, tenant u e, admitted]
      exact ⟨rfl, rfl⟩

theorem fresh_storeLevel {t : Tenant} {k : Sector} {v : Nat} (h : AllotmentFresh s) : AllotmentFresh (storeLevel t k v s) := by
  unfold storeLevel
  dsimp only
  split
  · next e => exact h.congr (allotment_modTenant (by rw [← e, tset_tget]))
  · refine fresh_passes fun y hy => (h y).congr (allotment_unused (k := k) ⟨rfl, rfl⟩ (fun d hd => ?_) hy)
    cases d with
    | dark => rfl
    | sector j => simp only [levelOf, tget_tset_ne _ _ _ _ fun e => hd (congrArg Dest.sector e.symm)]

theorem fresh_setPresence {t : Tenant} {k : Sector} {present : Bool} (h : AllotmentFresh s) :
    AllotmentFresh (setPresence t k present s) := by
  refine fresh_of_passed (setPresence_passed t k present s) fun y hy => (h y).congr ?_
  rw [allotment_appendLog]
  refine allotment_unused (k := k) ⟨rfl, rfl⟩ (fun d hd => ?_) (by simpa using hy)
  cases d with
  | dark => rfl
  | sector j => simp only [levelOf, tget_tset_ne _ _ _ _ fun e => hd (congrArg Dest.sector e.symm)]

theorem fresh_carrierEvent {t : Tenant} {k : Sector} {lock : Bool} (h : AllotmentFresh s) :
    AllotmentFresh (carrierEvent t k lock s) := by
  have noted : AllotmentFresh { s with carrierLock := tmod s.carrierLock t fun row => tset row k lock } := h.congr rfl
  unfold carrierEvent
  dsimp only
  split
  · exact fresh_setPresence noted
  · exact noted

end Sys2Proof.Machine

namespace Sys2Proof.Machine

variable {s : State} {z : Zone}

/-! ### The census (chapter 5) -/

theorem fresh_propose {t : Tenant} {k : Sector} {a : Sector} (h : AllotmentFresh s) : AllotmentFresh (propose t k z a s) := by
  have set : AllotmentFresh (setTarget z t (.sector a) .balancer s) := fresh_setTarget h
  exact (set.congr (allotment_modCell rfl)).congr (allotment_modTenant rfl)

theorem fresh_balance {t : Tenant} (h : AllotmentFresh s) : AllotmentFresh (balance t s) := by
  have sector : ∀ (l : List Sector) (x : State × Vector Nat 6), AllotmentFresh x.1 →
      AllotmentFresh (l.foldl (balanceSector t) x).1 := by
    intro l
    induction l with
    | nil => exact fun _ hx => hx
    | cons k rest ih =>
      intro x hx
      refine ih _ ?_
      unfold balanceSector
      dsimp only
      split
      · split
        · exact fresh_propose hx
        · exact hx
      · exact hx
  unfold balance
  split
  · exact sector _ _ h
  · exact h

theorem fresh_censusTenant {t : Tenant} (h : AllotmentFresh s) : AllotmentFresh (censusTenant t s) := by
  unfold censusTenant
  split
  · have measured : AllotmentFresh (measureTenant t s) := h.congr (allotment_modTenant rfl)
    exact fresh_balance measured
  · exact h

theorem allotment_countHoldOffs (s : State) : allotment (countHoldOffs s) = allotment s := by
  refine allotment_cells rfl fun z u => ?_
  have e : (countHoldOffs s).cell z u = if admitted s u then countDown (s.cell z u) else s.cell z u := by
    simp [countHoldOffs, State.cell]
  rw [e]
  split <;> rfl

theorem fresh_wakeStep (h : AllotmentFresh s) : AllotmentFresh (wakeStep s) := by
  unfold wakeStep
  split
  · split
    · exact fresh_setMode h
    · exact h.congr rfl
  · exact h

theorem fresh_censusExpiry (h : AllotmentFresh s) : AllotmentFresh (censusExpiry s) := by
  unfold censusExpiry
  split
  · exact h
  · have begun : AllotmentFresh { s with censusTimer := ⟨true, s.censusInterval⟩ } := h.congr rfl
    have measured := foldl_kept (P := AllotmentFresh) (fun _ t => fresh_censusTenant (t := t)) allTenants begun
    have counted := measured.congr (allotment_countHoldOffs _)
    exact fresh_finish _ (foldl_kept (P := AllotmentFresh) (fun _ _ => fresh_appendLog) _ (fresh_wakeStep counted))

/-! ### Supervision (chapter 7) -/

/-- A remote whose state and active alarms stay. -/
theorem fresh_remoteField {g : RemoteRec → RemoteRec} (hg : ∀ r, remoteFigures (g r) = remoteFigures r)
    (h : AllotmentFresh s) : AllotmentFresh (s.modRemote z g) := h.congr (allotment_modRemote hg)

theorem fresh_enterIsolated {cause : IsolationCause} (h : AllotmentFresh s) : AllotmentFresh (enterIsolated z cause s) := by
  refine fresh_results_set_of h ?_
  have isolated := agreeOff_modRemote s z (isolatedRecord cause)
  split
  · exact isolated.trans (agreeOff_outage z _)
  · exact isolated

theorem fresh_enterLost (h : AllotmentFresh s) : AllotmentFresh (enterLost z s) :=
  fresh_pass_of h ((agreeOff_modRemote s z lostRecord).trans (agreeOff_outage z _))

theorem fresh_handleMiss (h : AllotmentFresh s) : AllotmentFresh (handleMiss z s) := by
  have counted : AllotmentFresh (s.modRemote z fun r => { r with goodCount := 0, missCount := min (r.missCount + 1) 15 }) :=
    fresh_remoteField (fun _ => rfl) h
  unfold handleMiss
  dsimp only
  split
  · exact counted
  · split
    · exact fresh_appendLog (fresh_remoteField (fun _ => rfl) counted)
    · exact counted
  · split
    · exact fresh_enterLost counted
    · exact counted
  · split
    · exact fresh_enterLost counted
    · exact counted
  · exact counted
  · exact fresh_remoteField (fun _ => rfl) counted

theorem fresh_replyOverdrive {st : Status} (h : AllotmentFresh s) : AllotmentFresh (replyOverdrive z st s) := by
  have counted : ∀ n, AllotmentFresh (s.modRemote z fun r => { r with overdrive := n }) := fun _ =>
    fresh_remoteField (fun _ => rfl) h
  unfold replyOverdrive
  dsimp only
  split
  · split
    · exact fresh_appendLog (fresh_enterIsolated (counted _))
    · exact counted _
  · exact h

/-- A count of an alarm class is no figure of the allotment. -/
theorem fresh_modAlarm {c : AlarmClass} {f : AlarmRec → AlarmRec} (hf : ∀ a, (f a).active = a.active)
    (h : AllotmentFresh s) : AllotmentFresh (modAlarm z c f s) := by
  refine fresh_remoteField (fun r => Prod.ext rfl (funext fun i => ?_)) h
  dsimp only
  rw [tget_tmod]
  split
  · exact hf _
  · rfl

/-- R125: an alarm that comes or goes has its pass. -/
theorem fresh_replyAlarm {st : Status} {c : AlarmClass} (h : AllotmentFresh s) : AllotmentFresh (replyAlarm z st c s) := by
  have changed : ∀ f, AllotmentFresh (pass z (modAlarm z c f s)) := fun f => fresh_pass_of h (agreeOff_modRemote s z _)
  unfold replyAlarm
  dsimp only
  split
  · split
    · exact fresh_modAlarm (fun _ => rfl) h
    · split
      · exact fresh_appendLog (changed _)
      · exact fresh_modAlarm (fun _ => rfl) h
  · split
    · exact fresh_modAlarm (fun _ => rfl) h
    · split
      · exact fresh_appendLog (changed _)
      · exact fresh_modAlarm (fun _ => rfl) h

theorem fresh_replyAlarms {st : Status} (h : AllotmentFresh s) : AllotmentFresh (replyAlarms z st s) := by
  simp only [replyAlarms_eq]
  exact fresh_replyAlarm (fresh_replyAlarm (fresh_replyAlarm (fresh_replyAlarm h)))

theorem fresh_replyEscalation (h : AllotmentFresh s) : AllotmentFresh (replyEscalation z s) := by
  have raised : AllotmentFresh (s.modRemote z fun r => { r with alarms := tmapIdx (fun _ a => raiseEscalation a) r.alarms }) := by
    refine fresh_remoteField (fun r => Prod.ext rfl (funext fun i => ?_)) h
    dsimp only
    rw [tget_tmapIdx, raiseEscalation]
    split <;> rfl
  unfold replyEscalation
  dsimp only
  split
  · exact h
  · split
    · exact fresh_appendLog (fresh_enterIsolated raised)
    · exact raised

theorem fresh_enterService (h : AllotmentFresh s) : AllotmentFresh (enterService z s) := by
  have entered : ∀ g, AllotmentFresh (queueSet z (passResults z (s.modRemote z g))) := fun g =>
    fresh_results_set_of h (agreeOff_modRemote s z g)
  unfold enterService
  dsimp only
  split
  · exact fresh_appendLog (entered _)
  · exact entered _

theorem fresh_replyService (h : AllotmentFresh s) : AllotmentFresh (replyService z s) := by
  have changed : ∀ g, AllotmentFresh (pass z (s.modRemote z g)) := fun g => fresh_pass_of h (agreeOff_modRemote s z g)
  unfold replyService
  split
  · split
    · exact fresh_enterService h
    · exact h
  · split
    · exact fresh_enterService h
    · exact h
  · split
    · exact changed _
    · exact h
  · split
    · exact h
    · exact changed _
  · exact h
  · exact h

theorem fresh_replyOccupancy {st : Status} (h : AllotmentFresh s) : AllotmentFresh (replyOccupancy z st s) := by
  unfold replyOccupancy
  split
  · refine h.congr (allotment_cells rfl fun y u => ?_)
    rw [State.cell_modZoneCells]
    split <;> rfl
  · exact h

theorem fresh_replyEcho {st : Status} (h : AllotmentFresh s) : AllotmentFresh (replyEcho z st s) := by
  unfold replyEcho
  split
  · split
    · exact h.congr (allotment_queueSet z s)
    · exact h
  · exact h

/-- R138: the seven steps of a reply. -/
theorem fresh_handleReply {st : Status} (h : AllotmentFresh s) : AllotmentFresh (handleReply z st s) := by
  have counted : AllotmentFresh (replyCounts z st s) := fresh_remoteField (fun _ => rfl) h
  have checked : AllotmentFresh (replyOverdrive z st (replyCounts z st s)) := fresh_replyOverdrive counted
  exact fresh_replyEcho (fresh_replyOccupancy (fresh_replyService (fresh_replyEscalation (fresh_replyAlarms checked))))

/-! ### The end of a round -/

theorem fresh_logLost {f : FPort} {ps : List Pos} (h : AllotmentFresh s) : AllotmentFresh (logLost f ps s) := by
  refine foldl_kept (fun a p ha => ?_) ps h
  split
  · exact fresh_appendLog ha
  · exact ha

theorem fresh_markBehind {f : FPort} {ps : List Pos} (h : AllotmentFresh s) : AllotmentFresh (markBehind f ps s) := by
  refine foldl_kept (fun a p ha => ?_) ps h
  split
  · exact fresh_remoteField (fun _ => rfl) ha
  · exact ha

theorem fresh_groupEntries {f : FPort} {results : List (Pos × Bool)} (h : AllotmentFresh s) :
    AllotmentFresh (groupEntries f results s) := by
  unfold groupEntries
  dsimp only
  split
  · exact h
  · split
    · exact fresh_appendLog h
    · split
      · split
        · exact fresh_markBehind (fresh_appendLog h)
        · exact fresh_logLost h
      · exact fresh_logLost h

theorem fresh_roundEnd {f : FPort} {results : List (Pos × Bool)} (h : AllotmentFresh s) :
    AllotmentFresh (roundEnd f results s) := by
  refine foldl_kept (fun a p ha => ?_) _ (fresh_logLost (fresh_groupEntries h))
  split
  · exact fresh_remoteField (fun _ => rfl) ha
  · exact ha

/-! ### The Link Controllers (chapter 6) -/

variable {f : FPort}

theorem fresh_endRound {results : List (Pos × Bool)} (h : AllotmentFresh s) : AllotmentFresh (endRound f results s) :=
  ((fresh_roundEnd h).congr (allotment_modLink _ f _)).congr (allotment_startQueued f _)

theorem fresh_beginTurn {pos : Pos} {results : List (Pos × Bool)} (h : AllotmentFresh s) :
    AllotmentFresh (beginTurn f pos results s) := by
  unfold beginTurn
  split
  · exact h.congr rfl
  · exact fresh_endRound h

theorem fresh_afterClose {pos : Pos} {results : List (Pos × Bool)} (h : AllotmentFresh s) :
    AllotmentFresh (afterClose f pos results s) := by
  unfold afterClose
  split
  · exact h.congr rfl
  · exact fresh_endRound h

theorem fresh_deliver {pos : Pos} {reply : Option Status} (h : AllotmentFresh s) : AllotmentFresh (deliver f pos reply s) := by
  unfold deliver
  split
  · exact h
  · split
    · exact fresh_handleReply h
    · exact fresh_handleMiss h

theorem fresh_closeWindow {reply : Option Status} (h : AllotmentFresh s) : AllotmentFresh (closeWindow f reply s) := by
  unfold closeWindow
  split
  · exact fresh_finish _ (fresh_afterClose (fresh_deliver h))
  · exact h

theorem fresh_pollExpiry (h : AllotmentFresh s) : AllotmentFresh (pollExpiry s) := by
  unfold pollExpiry
  split
  · exact h
  · refine foldl_kept (fun a f ha => ?_) allFPorts (s := { s with pollTimer := ⟨true, s.pollInterval⟩ }) (h.congr rfl)
    unfold startRound
    split
    · exact ha
    · split
      · exact ha
      · exact ha.congr rfl

theorem fresh_pollEnd (h : AllotmentFresh s) : AllotmentFresh (pollEnd f s) := by
  unfold pollEnd
  split
  · split
    · exact h
    · exact h.congr rfl
  · exact h

theorem fresh_replyExpiry (h : AllotmentFresh s) : AllotmentFresh (replyExpiry f s) := by
  unfold replyExpiry
  split
  · exact h
  · exact fresh_closeWindow h

theorem fresh_reportFrame {fr : Frame} (h : AllotmentFresh s) : AllotmentFresh (reportFrame f fr s) := by
  cases fr with
  | set pos limit mute =>
    simp only [reportFrame, reportSet]
    split
    · exact fresh_remoteField (fun _ => rfl) h
    · exact h
  | chainMute => exact h

theorem fresh_takeOwed (h : AllotmentFresh s) : AllotmentFresh (takeOwed f s) := by
  unfold takeOwed
  split
  · exact h.congr (allotment_queueSet _ s)
  · exact h

theorem fresh_sendNext (h : AllotmentFresh s) : AllotmentFresh (sendNext f s) := by
  unfold sendNext
  split
  · split
    · exact h.congr rfl
    · exact fresh_beginTurn h
  · exact h.congr (allotment_startQueued f s)

theorem fresh_frameEnd (h : AllotmentFresh s) : AllotmentFresh (frameEnd f s) := by
  unfold frameEnd
  split
  · split
    · exact h
    · exact fresh_sendNext (fresh_takeOwed (fresh_reportFrame (h.congr (allotment_modLink s f _))))
  · exact h

theorem fresh_lockLost (h : AllotmentFresh s) : AllotmentFresh (lockLost f s) := by
  have noted : AllotmentFresh (s.modLink f fun l => { l with lockCond := false }) := h.congr (allotment_modLink _ _ _)
  unfold lockLost
  dsimp only
  split
  · exact noted
  · have dropped := noted.congr (allotment_modLink _ f fun l =>
      { l with locked := false, rx := .seeking, afterC3 := false, sending := .nothing })
    unfold roundAtLoss
    split
    · exact fresh_beginTurn dropped
    · exact dropped.congr (allotment_modLink _ _ _)
    · exact dropped

theorem fresh_lockBack (h : AllotmentFresh s) : AllotmentFresh (lockBack f s) := by
  unfold lockBack
  dsimp only
  split
  · exact h.congr rfl
  · exact h.congr (allotment_startQueued f _)

theorem fresh_takeDataOctet {b : Byte} (h : AllotmentFresh s) : AllotmentFresh (takeDataOctet f b s) := by
  unfold takeDataOctet
  split
  · exact h
  · split
    · exact h.congr rfl
    · exact h.congr rfl
  · dsimp only
    split
    · unfold frameDone
      dsimp only
      split
      · exact fresh_closeWindow (h.congr rfl)
      · exact h.congr rfl
    · exact h.congr rfl

theorem fresh_takeChars {cs : List LineChar} (h : AllotmentFresh s) : AllotmentFresh (takeChars f cs s) := by
  refine foldl_kept (fun a c ha => ?_) cs h
  unfold takeChar
  split
  · exact ha
  · cases c with
    | framing b =>
      dsimp only
      split
      · exact ha.congr rfl
      · exact ha.congr rfl
    | data b => exact fresh_takeDataOctet (ha.congr rfl)

end Sys2Proof.Machine

namespace Sys2Proof.Machine

variable {s : State}

/-! ### The store (R154) -/

theorem agreeOff_rebind (z : Zone) (s : State) : AgreeOff z s (rebind z s) := by
  unfold rebind
  dsimp only
  split
  · exact (agreeOff_modRemote s z _).trans (agreeOff_outage z _)
  · exact agreeOff_modRemote s z _

theorem rebind_zones (z : Zone) (s : State) : (rebind z s).zones = s.zones := by
  unfold rebind
  dsimp only
  split <;> rfl

theorem copyRecords_effLimit (p : PageNo) (rs : List StoreRecord) (s : State) (z : Zone) :
    ((copyRecords p rs s).zone z).effLimit = (s.zone z).effLimit := by
  refine foldl_keeps (fun x : State => (x.zone z).effLimit) _ (fun x y => ?_) _ s
  rw [State.zone_modZone]
  split <;> rfl

/-- R120: the zones whose binding has not changed are as they were. -/
theorem rebindPage_kept (before : State) (p : PageNo) (s : State) :
    (rebindPage before p s).zones = s.zones ∧
      ∀ y, (before.zone y).binding = (s.zone y).binding → allotment (rebindPage before p s) y = allotment s y := by
  refine foldl_kept (P := fun x => x.zones = s.zones ∧
    ∀ y, (before.zone y).binding = (s.zone y).binding → allotment x y = allotment s y) ?_ (zonesOfPage p) ⟨rfl, fun _ _ => rfl⟩
  rintro x z ⟨zones, kept⟩
  split
  · exact ⟨zones, kept⟩
  · next hb =>
    refine ⟨(rebind_zones z x).trans zones, fun y hy => ?_⟩
    have zone : x.zone y = s.zone y := by rw [State.zone, zones, State.zone]
    have other : z ≠ y := by
      rintro rfl
      exact hb (hy.trans (by rw [zone]))
    rw [agreeOff_rebind z x y other, kept y hy]

/-- R154: a pass at every zone whose copies or binding a page write has changed. -/
theorem fresh_liveWrite {p : PageNo} {rs : List StoreRecord} (h : AllotmentFresh s) : AllotmentFresh (liveWrite p rs s) := by
  obtain ⟨zones, kept⟩ := rebindPage_kept s p (copyRecords p rs s)
  refine fresh_passes fun y hy => (h y).congr ?_
  have zone : (rebindPage s p (copyRecords p rs s)).zone y = (copyRecords p rs s).zone y := by
    rw [State.zone, zones, State.zone]
  simp only [copyChanged, zone, Bool.or_eq_false_iff, bne_eq_false_iff_eq] at hy
  obtain ⟨⟨⟨_, live⟩, cls⟩, binding⟩ := hy
  have figures : zoneFigures ((copyRecords p rs s).zone y) = zoneFigures (s.zone y) := by
    rw [zoneFigures, ← live, ← cls, copyRecords_effLimit]
  rw [kept y binding]
  exact allotment_of_figures (by rw [copyRecords_eq]) (fun _ => by rw [copyRecords_eq]; rfl) figures
    (fun _ => by rw [copyRecords_eq]; rfl) (by rw [copyRecords_eq]; rfl) fun _ => by rw [copyRecords_eq]; rfl

theorem fresh_writeCompletion (h : AllotmentFresh s) : AllotmentFresh (writeCompletion s) := by
  unfold writeCompletion
  split
  · next p records _ =>
    have stored : AllotmentFresh
        { s with pages := tset s.pages p (sealPage (writtenOctets records)), storeOp := none } := h.congr rfl
    dsimp only
    split
    · exact fresh_modPort stored
    · exact fresh_finish s (fresh_modPort (fresh_liveWrite stored))
  · exact h

theorem fresh_lockCompletion (h : AllotmentFresh s) : AllotmentFresh (lockCompletion s) := by
  unfold lockCompletion
  split
  · exact h.congr rfl
  · exact h

/-! ### Resets and start-up -/

theorem fresh_hardwareReset (h : AllotmentFresh s) : AllotmentFresh (hardwareReset s) := by
  refine h.congr ?_
  unfold hardwareReset
  dsimp only
  rw [evalLogAll_eq, interruptStore_eq]
  rfl

/-- R25 to R31: out of service the effective limit is 0, and a tenant that is not admitted requests and gains nothing. -/
theorem fresh_of_vacant (service : ∀ z, inService s z = false) (tenants : ∀ t, s.tenant t = TenantRec.vacant)
    (zones : ∀ z, (s.zone z).effLimit = 0) (cells : ∀ z t, s.cell z t = Cell.dark) : AllotmentFresh s := by
  intro z
  have request : ∀ t, requestOf s z t = 0 := fun t => by simp [requestOf, tenants, TenantRec.vacant]
  have grant : ∀ e t, zoneGrant s z e t = 0 := fun e t => by simp [zoneGrant, grantOf, admitted, tenants, TenantRec.vacant]
  refine ⟨by simp [effLimitOf, service, zones], fun t => ?_⟩
  rw [cells, request, grant]
  exact ⟨rfl, rfl, rfl⟩

/-- R160, R161: at the end of start-up no remote is in service and no tenant is admitted. -/
theorem fresh_startedPart (s : State) : AllotmentFresh (startedPart s) := by
  refine fresh_of_vacant (fun z => ?_) (startedPart_tenant s) (fun z => ?_) cell_reset
  · have remote : (startedPart s).remote z = startedRemote ((startedPart s).zone z) := tget_tmapIdx _ _ _
    rw [inService, remote]
    unfold startedRemote
    cases ((startedPart s).zone z).binding <;> rfl
  · rcases loadZones_zone (loadPages s.pages allPages []) z with ⟨_, _, r, _, e⟩ | e
    · exact congrArg ZoneRec.effLimit e
    · exact congrArg ZoneRec.effLimit e

theorem fresh_startUp (h : AllotmentFresh s) : AllotmentFresh (startUp s) := by
  unfold startUp
  split
  · exact h
  · have entered := foldl_kept (P := AllotmentFresh) (f := fun s p => appendLog (Entry.pageInvalid s.seconds p) s)
      (fun _ _ => fresh_appendLog) (invalidPages (loadPages s.pages allPages [])) (fresh_startedPart s)
    exact fresh_modPort entered

/-! ### The commands of a tenant -/

theorem fresh_setWindow {p : Port} {a b : Byte} (h : AllotmentFresh s) : AllotmentFresh (setWindow p a b s) := by
  unfold setWindow
  split
  · split
    · exact fresh_setResult h
    · exact fresh_setResult (fresh_modPort h)
  · exact fresh_setResult h

theorem fresh_targetElement {t : Tenant} {b : Byte} (h : AllotmentFresh s) : AllotmentFresh (targetElement t b s) := by
  refine fresh_modPort ?_
  split
  · exact fresh_setResult h
  · split
    · exact fresh_setResult h
    · exact fresh_finish s (fresh_setTarget h)

theorem fresh_requestMove {t : Tenant} {zone dest : Byte} (h : AllotmentFresh s) :
    AllotmentFresh (requestMove t zone dest s) := by
  unfold requestMove
  split
  · split
    · exact fresh_setResult h
    · exact fresh_finish s (fresh_setResult (fresh_setTarget h))
  · exact fresh_setResult h

theorem fresh_cancelMove {t : Tenant} {zone : Byte} (h : AllotmentFresh s) : AllotmentFresh (cancelMove t zone s) := by
  unfold cancelMove
  split
  · exact fresh_setResult h
  · split
    · exact fresh_setResult h
    · exact fresh_finish s (fresh_setResult (fresh_setTarget h))

theorem fresh_alternatesElement {t : Tenant} {element : List Byte} (h : AllotmentFresh s) :
    AllotmentFresh (alternatesElement t element s) := by
  refine fresh_modPort ?_
  split
  · exact fresh_setResult h
  · exact h.congr (allotment_modCell rfl)

theorem fresh_setLevel {t : Tenant} {sec hi lo : Byte} (h : AllotmentFresh s) : AllotmentFresh (setLevel t sec hi lo s) := by
  unfold setLevel
  split
  · exact fresh_setResult h
  · exact fresh_setResult (fresh_storeLevel h)

theorem fresh_setScene {t : Tenant} {k : Slot} {x : Option (Vector SceneEntry 48)} (h : AllotmentFresh s) :
    AllotmentFresh (setScene t k x s) := h.congr (allotment_modTenant rfl)

theorem fresh_storeScene {t : Tenant} {slot : Byte} (h : AllotmentFresh s) : AllotmentFresh (storeScene t slot s) := by
  unfold storeScene
  split
  · exact fresh_setResult h
  · exact fresh_setResult (fresh_setScene h)

theorem fresh_clearScene {t : Tenant} {slot : Byte} (h : AllotmentFresh s) : AllotmentFresh (clearScene t slot s) := by
  unfold clearScene
  split
  · exact fresh_setResult h
  · exact fresh_setResult (fresh_setScene h)

theorem fresh_sceneElement {t : Tenant} {slot : Slot} {b : Byte} (h : AllotmentFresh s) :
    AllotmentFresh (sceneElement t slot b s) := by
  refine fresh_modPort ?_
  split
  · exact fresh_setResult h
  · exact fresh_setScene h

theorem fresh_recallEntry {t : Tenant} {scene : Vector SceneEntry 48} {z : Zone} (h : AllotmentFresh s) :
    AllotmentFresh (recallEntry t scene s z) := by
  unfold recallEntry
  split
  · exact h
  · split
    · exact fresh_setResult h
    · split
      · exact h
      · next d _ _ _ =>
        have set : AllotmentFresh (setTarget z t d .scene s) := fresh_setTarget h
        exact set.congr (allotment_modCell rfl)

theorem fresh_recallScene {t : Tenant} {slot : Byte} (h : AllotmentFresh s) : AllotmentFresh (recallScene t slot s) := by
  unfold recallScene
  split
  · exact fresh_setResult h
  · split
    · exact fresh_setResult h
    · exact fresh_finish s
        (foldl_kept (P := AllotmentFresh) (fun _ _ => fresh_recallEntry) allZones (fresh_setResult h))

theorem fresh_setSpreading {t : Tenant} {a b c d e f g i : Byte} (h : AllotmentFresh s) :
    AllotmentFresh (setSpreading t a b c d e f g i s) := by
  unfold setSpreading
  dsimp only
  split
  · exact fresh_setResult h
  · exact fresh_setResult (h.congr (allotment_modTenant rfl))

theorem fresh_completeTenant {t : Tenant} {c : Command} {os : List Byte} (h : AllotmentFresh s) :
    AllotmentFresh (completeTenant t c os s) := by
  unfold completeTenant
  split
  · exact with2_kept (fun _ _ => fresh_setWindow h) os h
  · exact with2_kept (fun _ _ => fresh_requestMove h) os h
  · exact with1_kept (fun _ => fresh_cancelMove h) os h
  · exact with3_kept (fun _ _ _ => fresh_setLevel h) os h
  · exact with1_kept (fun _ => fresh_storeScene h) os h
  · exact with1_kept (fun _ => fresh_recallScene h) os h
  · exact with1_kept (fun _ => fresh_clearScene h) os h
  · unfold with8
    split
    · exact fresh_setSpreading h
    · exact h
  · exact h

/-! ### The commands of the venue -/

theorem fresh_admitTenant {t quota count : Byte} (h : AllotmentFresh s) : AllotmentFresh (admitTenant t quota count s) := by
  unfold admitTenant
  split
  · exact fresh_setResult h
  · split
    · exact fresh_setResult h
    · split
      · exact fresh_setResult h
      · split
        · exact fresh_setResult h
        · exact fresh_setResult (fresh_passAll _)

theorem fresh_setQuota {t share : Byte} (h : AllotmentFresh s) : AllotmentFresh (setQuota t share s) := by
  unfold setQuota
  split
  · exact fresh_setResult h
  · split
    · exact fresh_setResult h
    · split
      · exact fresh_setResult h
      · refine fresh_setResult ?_
        split
        · next e => exact h.congr (allotment_modTenant (by rw [← e]))
        · exact fresh_passAll _

theorem fresh_suspendTenant {t : Byte} (h : AllotmentFresh s) : AllotmentFresh (suspendTenant t s) := by
  unfold suspendTenant
  split
  · exact fresh_setResult h
  · split
    · exact fresh_setResult h
    · exact fresh_finish s (fresh_setResult ((fresh_passAll _).congr (allotment_endFromOutside _ _)))

theorem fresh_resumeTenant {t : Byte} (h : AllotmentFresh s) : AllotmentFresh (resumeTenant t s) := by
  unfold resumeTenant
  split
  · exact fresh_setResult h
  · split
    · exact fresh_setResult h
    · exact fresh_setResult (fresh_passAll _)

theorem fresh_retireTenant {t : Byte} (h : AllotmentFresh s) : AllotmentFresh (retireTenant t s) := by
  unfold retireTenant
  split
  · exact fresh_setResult h
  · split
    · exact fresh_setResult h
    · exact fresh_finish s (fresh_setResult (fresh_modPort ((fresh_passAll _).congr (allotment_endFromOutside _ _))))

theorem fresh_setLimit {zone hi lo : Byte} (h : AllotmentFresh s) : AllotmentFresh (setLimit zone hi lo s) := by
  unfold setLimit
  split
  · exact fresh_setResult h
  · exact fresh_setResult (fresh_storeLive h)

theorem fresh_limitElement {hi lo : Byte} (h : AllotmentFresh s) : AllotmentFresh (limitElement hi lo s) := by
  refine fresh_modPort ?_
  unfold markResult
  split
  · exact fresh_setResult (fresh_storeLive h)
  · exact fresh_storeLive h

/-- R12: the one command whose effect relies on the law of one move to a cell (R44). -/
theorem fresh_pinZone {zone : Byte} (keys : (s.moves.map moveKey).Nodup) (h : AllotmentFresh s) :
    AllotmentFresh (pinZone zone s) := by
  unfold pinZone
  split
  · exact fresh_setResult h
  · split
    · exact fresh_setResult h
    · exact fresh_finish s (fresh_setResult (h.congr (allotment_pinRecord keys _)))

theorem fresh_unpinZone {zone : Byte} (h : AllotmentFresh s) : AllotmentFresh (unpinZone zone s) := by
  unfold unpinZone
  split
  · exact fresh_setResult h
  · exact fresh_setResult (h.congr (allotment_modZone rfl))

theorem fresh_setVenueMode {mode : Byte} (h : AllotmentFresh s) : AllotmentFresh (setVenueMode mode s) := by
  unfold setVenueMode
  split
  · exact fresh_setResult h
  · exact fresh_setResult (fresh_setMode h)

theorem fresh_setStandbyClasses {flags : Byte} (h : AllotmentFresh s) : AllotmentFresh (setStandbyClasses flags s) :=
  fresh_setResult (fresh_passDimmed (t := { s with standbyDark := standbyFlags flags }) rfl h)

theorem fresh_setDerate {cls derate : Byte} (h : AllotmentFresh s) : AllotmentFresh (setDerate cls derate s) := by
  unfold setDerate
  split
  · exact fresh_setResult h
  · exact fresh_setResult (fresh_storeDerate h)

theorem fresh_setEscalation {cls setting : Byte} (h : AllotmentFresh s) : AllotmentFresh (setEscalation cls setting s) := by
  unfold setEscalation
  split
  · exact fresh_setResult h
  · exact h.congr rfl

theorem fresh_isolateRemote {zone : Byte} (h : AllotmentFresh s) : AllotmentFresh (isolateRemote zone s) := by
  unfold isolateRemote
  split
  · exact fresh_setResult h
  · split
    · exact fresh_setResult h
    · exact fresh_setResult h
    · exact fresh_finish s (fresh_setResult (fresh_enterIsolated h))

theorem fresh_restoreRemote {zone : Byte} (h : AllotmentFresh s) : AllotmentFresh (restoreRemote zone s) := by
  unfold restoreRemote
  split
  · exact fresh_setResult h
  · split
    · exact fresh_setResult (fresh_pass_of h (agreeOff_modRemote s _ _))
    · exact fresh_setResult h

theorem fresh_writeStorePage {page : Byte} {records : Vector Byte 32} (h : AllotmentFresh s) :
    AllotmentFresh (writeStorePage page records s) := by
  unfold writeStorePage
  split
  · exact fresh_setResult h
  · split
    · exact fresh_setResult h
    · split
      · exact fresh_setResult h
      · split
        · exact fresh_setResult h
        · exact h.congr rfl

theorem fresh_lockStorePage {page : Byte} (h : AllotmentFresh s) : AllotmentFresh (lockStorePage page s) := by
  unfold lockStorePage
  split
  · exact fresh_setResult h
  · split
    · exact fresh_setResult h
    · split
      · exact fresh_setResult h
      · split
        · exact fresh_setResult h
        · exact h.congr rfl

theorem fresh_readStorePage {page : Byte} (h : AllotmentFresh s) : AllotmentFresh (readStorePage page s) := by
  unfold readStorePage
  split
  · exact fresh_setResult h
  · split
    · exact fresh_setResult h
    · exact h.congr rfl

theorem fresh_completeVenue {c : Command} {os : List Byte} (keys : (s.moves.map moveKey).Nodup) (h : AllotmentFresh s) :
    AllotmentFresh (completeVenue c os s) := by
  unfold completeVenue
  split
  · exact with2_kept (fun _ _ => fresh_setWindow h) os h
  · exact with3_kept (fun _ _ _ => fresh_admitTenant h) os h
  · exact with1_kept (fun _ => fresh_suspendTenant h) os h
  · exact with1_kept (fun _ => fresh_resumeTenant h) os h
  · exact with1_kept (fun _ => fresh_retireTenant h) os h
  · exact with2_kept (fun _ _ => fresh_setQuota h) os h
  · exact with3_kept (fun _ _ _ => fresh_setLimit h) os h
  · exact with1_kept (fun _ => fresh_pinZone keys h) os h
  · exact with1_kept (fun _ => fresh_unpinZone h) os h
  · exact with1_kept (fun _ => fresh_setVenueMode h) os h
  · exact with1_kept (fun _ => fresh_setStandbyClasses h) os h
  · exact with3_kept (fun _ _ _ => h.congr rfl) os h
  · exact with2_kept (fun _ _ => fresh_setDerate h) os h
  · exact with2_kept (fun _ _ => fresh_setEscalation h) os h
  · unfold with4
    split
    · exact h.congr rfl
    · exact h
  · exact with2_kept (fun _ _ => h.congr rfl) os h
  · exact with1_kept (fun _ => h.congr rfl) os h
  · exact with1_kept (fun _ => fresh_isolateRemote h) os h
  · exact with1_kept (fun _ => fresh_restoreRemote h) os h
  · unfold withPage
    split
    · exact fresh_writeStorePage h
    · exact h
  · exact with1_kept (fun _ => fresh_lockStorePage h) os h
  · exact with1_kept (fun _ => fresh_readStorePage h) os h
  · exact h

end Sys2Proof.Machine

namespace Sys2Proof.Machine

/-! ### One move to a cell (R44) -/

theorem keys_dropMove {s : State} (z : Zone) (t : Tenant) (h : (s.moves.map moveKey).Nodup) :
    ((s.dropMove z t).moves.map moveKey).Nodup := h.sublist (List.filter_sublist.map _)

theorem keys_admitNext {s : State} (h : (s.moves.map moveKey).Nodup) : ((admitNext s).moves.map moveKey).Nodup := by
  rcases e : nextAdmission s with _ | ⟨t, z⟩
  · rwa [admitNext_none e]
  · have free := (pendingCell_iff.mp (nextAdmission_pending e)).2
    rw [admitNext_some e, List.map_append, List.map_singleton, List.nodup_append_comm, List.singleton_append, List.nodup_cons]
    exact ⟨free, h⟩

theorem keys_startRamping {s : State} (m : Move) (h : (s.moves.map moveKey).Nodup) :
    ((startRamping m s).moves.map moveKey).Nodup := by
  have keys : (startRamping m s).moves.map moveKey = s.moves.map moveKey := keys_modMove fun _ _ _ _ => rfl
  rwa [keys]

theorem keys_setTarget {s : State} {z : Zone} {t : Tenant} {d : Dest} {src : Origin} (h : (s.moves.map moveKey).Nodup) :
    ((setTarget z t d src s).moves.map moveKey).Nodup := by
  unfold setTarget
  split
  · exact h
  · split
    · dsimp only
      split
      · exact h
      · rw [(pass_passed z _).moves]
        exact h
    · split
      · exact h
      · split
        · next m hm =>
          obtain ⟨_, mz, mt⟩ := moveAt_some hm
          unfold retargetMove
          split
          · exact keys_dropMove (s := s.modCell z t fun c => { c with target := d, source := src }) z t h
          · next n hn =>
            obtain ⟨nz, nt, _⟩ := retargeted_some hn
            rw [keys_modMove fun k _ kz kt => by simp [moveKey, nz, nt, mz, mt, kz, kt]]
            exact h
        · exact h

theorem keys_completeMove {s : State} (m : Move) (h : (s.moves.map moveKey).Nodup) :
    ((completeMove m s).moves.map moveKey).Nodup := by
  have dropped := keys_dropMove m.zone m.tenant h
  unfold completeMove
  dsimp only
  split <;> exact dropped

theorem keys_rampMoves {s : State} (h : (s.moves.map moveKey).Nodup) : ((rampMoves s).moves.map moveKey).Nodup := by
  refine foldl_kept (P := fun x => (x.moves.map moveKey).Nodup) (fun _ m => keys_completeMove m) _ ?_
  have key : moveKey ∘ advanceMove s.rampStep = moveKey := funext fun m => by
    obtain ⟨w, e, _⟩ := advanceMove_eq s.rampStep m
    rw [Function.comp_apply, e]
    rfl
  rw [List.map_map, key]
  exact h

theorem keys_startUp {s : State} (h : (s.moves.map moveKey).Nodup) : ((startUp s).moves.map moveKey).Nodup := by
  unfold startUp
  split
  · exact h
  · refine foldl_kept (P := fun x => (x.moves.map moveKey).Nodup) (f := fun s p => appendLog (Entry.pageInvalid s.seconds p) s)
      (fun x p hx => ?_) (invalidPages (loadPages s.pages allPages [])) (s := startedPart s) .nil
    rw [appendLog_eq]
    exact hx

/-- R44: every change of which the events are made leaves one move to a cell. -/
theorem keys_kept : Kept (fun s => (s.moves.map moveKey).Nodup) fun _ => True where
  active _ _ := trivial
  busy _ _ := trivial
  settings e _ h := by
    rw [e]
    exact h
  port _ _ _ h := h
  cmd _ _ _ h := h
  append e h := by
    rw [appendLog_eq]
    exact h
  read p r _ h := by
    obtain ⟨n, e, _⟩ := readLog_eq p r _
    rw [e, setReader_eq]
    exact h
  results _ h := h
  queue z h := by
    rw [queueSet_moves]
    exact h
  admission := keys_admitNext
  slot _ _ := keys_startRamping _
  target _ _ _ _ := keys_setTarget
  cells e _ h := by
    rw [e]
    exact h
  tenant _ _ _ h := h
  zone _ _ _ h := h
  pin _ h := h.sublist (List.filter_sublist.map _)
  link _ _ _ h := h
  remote _ _ _ h := h
  leave _ _ _ h := h.sublist (List.filter_sublist.map _)
  ramp := keys_rampMoves
  newTenant t quota count _ _ h := by
    rw [admitRecord_eq]
    exact h
  quota _ _ _ h := h
  suspension t _ h := by
    rw [endFromOutside_eq]
    exact h.sublist (List.filter_sublist.map _)
  resumption _ _ h := h
  retirement t h := by
    rw [retirePort, endFromOutside_eq]
    exact h.sublist (List.filter_sublist.map _)
  storeWrite _ _ _ h := h
  storeLock _ h := h
  storeEnd h := h
  copies p records _ h := by
    rw [copyRecords_eq]
    exact h
  resetBegins h := h
  hardware h := by
    unfold hardwareReset
    dsimp only
    rw [evalLogAll_eq, interruptStore_eq]
    exact h
  restart := keys_startUp

/-! ### Octets on a port (chapter 10) -/

variable {s : State} {p : Port}

theorem fresh_complete {c : Command} {os : List Byte} (keys : (s.moves.map moveKey).Nodup) (h : AllotmentFresh s) :
    AllotmentFresh (complete p c os s) := by
  have idle : AllotmentFresh (setCmd p .idle s) := fresh_modPort h
  cases p with
  | tenant t => exact fresh_completeTenant idle
  | venue => exact fresh_completeVenue (s := setCmd .venue .idle s) keys idle

theorem fresh_applyElement {w : WriteTo} {os : List Byte} (h : AllotmentFresh s) : AllotmentFresh (applyElement p w os s) := by
  unfold applyElement
  split
  · exact with1_kept (fun _ => fresh_targetElement h) os h
  · exact fresh_alternatesElement h
  · exact with1_kept (fun _ => fresh_sceneElement h) os h
  · exact with2_kept (fun _ _ => fresh_limitElement h) os h
  · exact with1_kept (fun _ => h.congr rfl) os (fresh_modPort h)
  · exact h

theorem fresh_takeLeading {c : Command} {b : Byte} (h : AllotmentFresh s) : AllotmentFresh (takeLeading p c b s) := by
  have next : ∀ prog, AllotmentFresh (setCmd p prog s) := fun _ => fresh_modPort h
  have refused : AllotmentFresh (setResult p .range (setCmd p .idle s)) := fresh_setResult (next _)
  unfold takeLeading
  dsimp only
  split
  · split
    · exact next _
    · exact refused
  · split
    · exact next _
    · exact refused
  · split
    · exact next _
    · exact refused
  · exact h

theorem fresh_countOctet {r : ReadFrom} {held : Option (List Byte)} {pos : Nat} (h : AllotmentFresh s) :
    AllotmentFresh (countOctet p r held pos s) := by
  unfold countOctet
  split
  · exact fresh_modPort h
  · split
    · exact fresh_modPort h
    · dsimp only
      split
      · exact fresh_modPort (fresh_modPort h)
      · exact fresh_modPort h

theorem fresh_takeParam {b : Byte} (keys : (s.moves.map moveKey).Nodup) (h : AllotmentFresh s) :
    AllotmentFresh (takeParam p b s) := by
  unfold takeParam
  split
  · exact h
  · dsimp only
    split
    · exact fresh_complete keys h
    · exact fresh_modPort h
  · exact fresh_takeLeading h
  · dsimp only
    split
    · exact fresh_applyElement (fresh_modPort h)
    · exact fresh_modPort h
  · exact fresh_countOctet h

theorem allotment_acceptCode (p : Port) (c : Command) (s : State) : allotment (acceptCode p c s) = allotment s := by
  cases c with
  | readFault =>
    unfold acceptCode takeFault
    dsimp only
    split
    · rfl
    · exact allotment_readLog p _ _
  | readPlan => cases p <;> rfl
  | readGrants => cases p <;> rfl
  | readLoads => cases p <;> rfl
  | _ => rfl

/-- R164: a command code changes its port, the readers of the log, and at SOFT RESET the timers. -/
theorem fresh_takeCode {b : Byte} (h : AllotmentFresh s) : AllotmentFresh (takeCode p b s) := by
  unfold takeCode
  dsimp only
  split
  · exact h.congr rfl
  · split
    · exact h.congr rfl
    · exact h.congr (allotment_acceptCode p _ _)

theorem fresh_takeOctet {o : Bool × Byte} (keys : (s.moves.map moveKey).Nodup) (h : AllotmentFresh s) :
    AllotmentFresh (takeOctet p s o) := by
  unfold takeOctet
  split
  · exact fresh_modPort h
  · obtain ⟨x, e⟩ := beginOctet_eq p s
    have presented : ∀ b, AllotmentFresh (present p b (beginOctet p s)) := fun b => by
      rw [e]
      exact fresh_modPort (fresh_modPort h)
    have moves : ∀ b, (present p b (beginOctet p s)).moves = s.moves := fun b => by
      rw [e]
      rfl
    dsimp only
    split
    · exact fresh_takeParam (by rwa [moves]) (presented _)
    · exact fresh_takeCode (presented _)

theorem fresh_clockBits {bits : List LineBit} (keys : (s.moves.map moveKey).Nodup) (h : AllotmentFresh s) :
    AllotmentFresh (clockBits p bits s) := by
  unfold clockBits
  split
  · exact fresh_modPort h
  · split
    · exact fresh_modPort h
    · have taken := foldl_kept (P := fun x => (x.moves.map moveKey).Nodup ∧ AllotmentFresh x) (f := takeOctet p)
        (fun _ o hx => ⟨keys_kept.on_takeOctet p o hx.1, fresh_takeOctet hx.1 hx.2⟩)
        (cutOctets (s.port p).assembly bits).1 (s := s.modPort p fun q => { q with assembly := [], dataOut := [] })
        ⟨keys, fresh_modPort h⟩
      unfold takeBits beginNext
      dsimp only
      split
      · exact taken.2
      · obtain ⟨x, e⟩ := beginOctet_eq p (((cutOctets (s.port p).assembly bits).1.foldl (takeOctet p)
          (s.modPort p fun q => { q with assembly := [], dataOut := [] })).modPort p fun q =>
            { q with assembly := (cutOctets (s.port p).assembly bits).2 })
        rw [e]
        exact fresh_modPort (fresh_modPort taken.2)

/-! ### Every step -/

theorem fresh_event {t : State} (e : Event s t) (keys : (s.moves.map moveKey).Nodup) (h : AllotmentFresh s) :
    AllotmentFresh t := by
  cases e with
  | burst c p b => cases b <;> exact fresh_clockBits keys h
  | element p c => exact fresh_clockBits keys h
  | code p b c => exact fresh_clockBits keys h
  | hardwareReset => exact fresh_hardwareReset h
  | startUp => exact fresh_startUp h
  | selectRise p => exact fresh_modPort h
  | selectFall p => exact fresh_modPort h
  | rampTimer => exact fresh_rampExpiry h
  | censusTimer => exact fresh_censusExpiry h
  | pollTimer => exact fresh_pollExpiry h
  | pollSent f => exact fresh_pollEnd h
  | chars f cs => exact fresh_takeChars h
  | replyTimer f => exact fresh_replyExpiry h
  | frameSent f => exact fresh_frameEnd h
  | lockLost f => exact fresh_lockLost h
  | lockBack f => exact fresh_lockBack h
  | carrier t k lock => exact fresh_carrierEvent h
  | written => exact fresh_writeCompletion h
  | locked => exact fresh_lockCompletion h
  | second => exact h.congr rfl

/-- Settles O60: every event that changes an input of a zone's results has a pass at the zone, and every other change
leaves what the law reads (`allotment`) as it was. Of the bounds of the Move Queue the law of one move to a cell is used. -/
theorem stepKeepsAllotment : Obligations.StepKeepsAllotment := by
  rintro s t ⟨_, _, _, keys, _⟩ h hstep
  obtain rfl | ⟨rest, e⟩ := step_event hstep
  · exact h
  · exact fresh_event (s := { s with pending := rest }) e keys (h.congr rfl)

end Sys2Proof.Machine

namespace Sys2Proof.Machine

/-! ### What one pass leaves -/

variable (s : State) (z : Zone)

theorem pass_zone : (pass z s).zone z = { s.zone z with effLimit := effLimitOf s z } :=
  ((pass_passed z s).results.1 z rfl).1

theorem pass_cell (t : Tenant) :
    (pass z s).cell z t =
      { s.cell z t with
        request := requestOf s z t
        grant := zoneGrant s z (effLimitOf s z) t
        gain := gainOf (requestOf s z t) (zoneGrant s z (effLimitOf s z) t) } :=
  ((pass_passed z s).results.1 z rfl).2 t

/-! ### The effective limit (R25, R26) -/

theorem effLimitOf_dark (h : inService s z = false ∨ dimmed s z = true) : effLimitOf s z = 0 := by
  unfold effLimitOf
  rcases h with h | h
  · simp [h]
  · simp [h]

theorem effLimitOf_lit (service : inService s z = true) (lit : dimmed s z = false) :
    effLimitOf s z = (s.zone z).live * derateFactor s z / 32 := by
  simp [effLimitOf, service, lit]

theorem mem_allAlarms (c : AlarmClass) : c ∈ allAlarms := by cases c <;> decide

/-- The smallest of a bound and the settings of the classes that are active. -/
theorem foldl_min_active (active : AlarmClass → Bool) (setting : AlarmClass → Nat) (l : List AlarmClass) (top : Nat) :
    (∀ c ∈ l, active c = true → l.foldl (fun d c => if active c then min d (setting c) else d) top ≤ setting c) ∧
      l.foldl (fun d c => if active c then min d (setting c) else d) top ≤ top ∧
        (l.foldl (fun d c => if active c then min d (setting c) else d) top = top ∨
          ∃ c ∈ l, active c = true ∧ l.foldl (fun d c => if active c then min d (setting c) else d) top = setting c) := by
  induction l generalizing top with
  | nil => exact ⟨by simp, Nat.le_refl _, .inl rfl⟩
  | cons x rest ih =>
    rw [List.foldl_cons]
    cases hx : active x with
    | false =>
      obtain ⟨each, below, reached⟩ := ih top
      refine ⟨fun c hc ha => ?_, below, reached.imp id fun ⟨c, hc, h⟩ => ⟨c, List.mem_cons_of_mem _ hc, h⟩⟩
      rcases List.mem_cons.mp hc with rfl | hc
      · exact absurd (hx.symm.trans ha) (by simp)
      · exact each c hc ha
    | true =>
      obtain ⟨each, below, reached⟩ := ih (min top (setting x))
      refine ⟨fun c hc ha => ?_, below.trans (Nat.min_le_left _ _), ?_⟩
      · rcases List.mem_cons.mp hc with rfl | hc
        · exact below.trans (Nat.min_le_right _ _)
        · exact each c hc ha
      · rcases reached with e | ⟨c, hc, h⟩
        · rcases Nat.le_total top (setting x) with k | k
          · exact .inl (e.trans (Nat.min_eq_left k))
          · exact .inr ⟨x, List.mem_cons_self, hx, e.trans (Nat.min_eq_right k)⟩
        · exact .inr ⟨c, List.mem_cons_of_mem _ hc, h⟩

theorem derateFactor_le : derateFactor s z ≤ 32 :=
  (foldl_min_active (fun c => (alarmAt s z c).active) (fun c => tget s.derate (alarmIdx c)) allAlarms 32).2.1

/-- R26: the factor is the smallest setting among the active classes, or 32 with none active. -/
theorem derateFactor_smallest (bounded : ∀ i, tget s.derate i ≤ 32) :
    (∀ c, (alarmAt s z c).active = true → derateFactor s z ≤ tget s.derate (alarmIdx c)) ∧
      ((∃ c, (alarmAt s z c).active = true ∧ derateFactor s z = tget s.derate (alarmIdx c)) ∨
        (derateFactor s z = 32 ∧ ∀ c, (alarmAt s z c).active = false)) := by
  obtain ⟨each, _, reached⟩ :=
    foldl_min_active (fun c => (alarmAt s z c).active) (fun c => tget s.derate (alarmIdx c)) allAlarms 32
  have below : ∀ c, (alarmAt s z c).active = true → derateFactor s z ≤ tget s.derate (alarmIdx c) := fun c =>
    each c (mem_allAlarms c)
  refine ⟨below, ?_⟩
  rcases reached with top | ⟨c, _, ha, e⟩
  · by_cases some : ∃ c, (alarmAt s z c).active = true
    · obtain ⟨c, ha⟩ := some
      exact .inl ⟨c, ha, Nat.le_antisymm (below c ha) ((bounded _).trans (le_of_eq top.symm))⟩
    · exact .inr ⟨top, fun c => by simpa using not_exists.mp some c⟩
  · exact .inl ⟨c, ha, e⟩

/-! ### Requests (R27) -/

theorem requestOf_inactive {t : Tenant} (h : (s.tenant t).state ≠ .active) : requestOf s z t = 0 := by
  rw [requestOf_eq, if_neg h]

theorem requestOf_ramping {t : Tenant} {m : Move} (h : (s.tenant t).state = .active) (hm : moveAt s z t = some m)
    (hr : m.state = .ramping) : requestOf s z t = max (levelOf (s.tenant t) m.src) (levelOf (s.tenant t) m.dst) := by
  rw [requestOf_eq, if_pos h, rampEnds, hm, Option.bind_some, if_pos hr]

theorem requestOf_waiting {t : Tenant} (h : (s.tenant t).state = .active)
    (hm : ∀ m, moveAt s z t = some m → m.state = .waiting) : requestOf s z t = levelOf (s.tenant t) (s.cell z t).home := by
  rw [requestOf_eq, if_pos h, rampEnds_none hm]

/-- Settles O27: a pass leaves the effective limit and the requests that `effLimitOf` and `requestOf` give. -/
theorem limitAndRequest : Obligations.LimitAndRequest := by
  intro s z
  have limit : ((pass z s).zone z).effLimit = effLimitOf s z := by rw [pass_zone]
  have request : ∀ t, ((pass z s).cell z t).request = requestOf s z t := fun t => by rw [pass_cell]
  refine ⟨fun bounded => ⟨fun dark => ?_, fun service lit => ?_⟩, fun t => ⟨fun h => ?_, fun h => ⟨fun m hm hr => ?_, fun hm => ?_⟩,
    rfl, fun k => rfl⟩⟩
  · rw [limit, effLimitOf_dark s z dark]
  · obtain ⟨_, _, _, _, _, _, _, _, derates, _⟩ := bounded
    exact ⟨derateFactor s z, limit.trans (effLimitOf_lit s z service lit), derateFactor_smallest s z derates⟩
  · rw [request, requestOf_inactive s z h]
  · rw [request, requestOf_ramping s z h hm hr]
  · rw [request, requestOf_waiting s z h hm]

end Sys2Proof.Machine

namespace Sys2Proof.Machine

/-! ### Sums over the four tenants -/

theorem sumTenants_le {f g : Tenant → Nat} (h : ∀ t, f t ≤ g t) : sumTenants f ≤ sumTenants g := by
  have h0 := h 0
  have h1 := h 1
  have h2 := h 2
  have h3 := h 3
  unfold sumTenants
  omega

theorem sumTenants_add (f g : Tenant → Nat) : (sumTenants fun t => f t + g t) = sumTenants f + sumTenants g := by
  simp only [sumTenants]
  omega

theorem le_sumTenants (f : Tenant → Nat) (t : Tenant) : f t ≤ sumTenants f := by
  have all : ∀ v : Tenant, v = 0 ∨ v = 1 ∨ v = 2 ∨ v = 3 := by decide
  unfold sumTenants
  rcases all t with rfl | rfl | rfl | rfl <;> omega

theorem sumTenants_mul (k : Nat) (f : Tenant → Nat) : (sumTenants fun t => k * f t) = k * sumTenants f := by
  simp only [sumTenants, Nat.mul_add]

theorem sumTenants_div_le (f : Tenant → Nat) (d : Nat) : (sumTenants fun t => f t / d) ≤ sumTenants f / d := by
  simp only [sumTenants]
  have step : ∀ a b, a / d + b / d ≤ (a + b) / d := fun _ _ => Nat.div_add_div_le_add_div
  have h1 := step (f 0) (f 1)
  have h2 := step (f 0 + f 1) (f 2)
  have h3 := step (f 0 + f 1 + f 2) (f 3)
  omega

theorem countP_allTenants (p : Tenant → Bool) : allTenants.countP p = sumTenants fun t => if p t = true then 1 else 0 := by
  simp [allTenants, List.countP_cons, sumTenants]
  omega

/-! ### The stages of the allotment (R28 to R31) -/

section

variable (eff : Nat) (adm : Tenant → Bool) (share q : Tenant → Nat)

theorem stageOne_eq (t : Tenant) : stageOne eff adm share q t = if adm t = true then min (q t) (eff * share t / 32) else 0 := by
  unfold stageOne floorOf
  split
  · rfl
  · exact Nat.min_zero _

theorem stageOne_le (t : Tenant) : stageOne eff adm share q t ≤ q t := Nat.min_le_left _ _

theorem stageOne_add_excess {t : Tenant} (h : adm t = true) :
    stageOne eff adm share q t + excessOf eff adm share q t = q t := by
  have := stageOne_le eff adm share q t
  rw [excessOf, if_pos h]
  omega

theorem excessOf_not_admitted {t : Tenant} (h : adm t = false) : excessOf eff adm share q t = 0 := by simp [excessOf, h]

theorem stageOne_not_admitted {t : Tenant} (h : adm t = false) : stageOne eff adm share q t = 0 := by simp [stageOne_eq, h]

/-- R28: shares of 32 in sum keep the floors within the effective limit. -/
theorem sum_stageOne_le (shares : (sumTenants fun t => if adm t then share t else 0) ≤ 32) :
    sumTenants (stageOne eff adm share q) ≤ eff := by
  have floor : ∀ t, stageOne eff adm share q t ≤ (eff * if adm t then share t else 0) / 32 := fun t => by
    rw [stageOne_eq]
    split
    · exact Nat.min_le_right _ _
    · exact Nat.zero_le _
  calc sumTenants (stageOne eff adm share q)
      ≤ sumTenants fun t => (eff * if adm t then share t else 0) / 32 := sumTenants_le floor
    _ ≤ (sumTenants fun t => eff * if adm t then share t else 0) / 32 := sumTenants_div_le _ _
    _ = eff * (sumTenants fun t => if adm t then share t else 0) / 32 := by rw [sumTenants_mul]
    _ ≤ eff * 32 / 32 := Nat.div_le_div_right (Nat.mul_le_mul_left _ shares)
    _ = eff := Nat.mul_div_cancel _ (by decide)

/-! ### The second and third stage (R29, R30) -/

/-- R29: what a tenant receives of the remainder `r` in proportion to its excess. -/
def proportionOf (r : Nat) (e : Tenant → Nat) (t : Tenant) : Nat := r * e t / sumTenants e

/-- R30: what the second stage leaves of the remainder. -/
def leftoverOf (r : Nat) (e : Tenant → Nat) : Nat := r - sumTenants (proportionOf r e)

/-- R30: the one unit of the leftover that a tenant receives or not. -/
def unitOf (left : Nat) (e : Tenant → Nat) (t : Tenant) : Nat := if 0 < e t ∧ rankOf e t < left then 1 else 0

/-- R30: the number of tenants that have an excess. -/
def excessCount (e : Tenant → Nat) : Nat := sumTenants fun t => if 0 < e t then 1 else 0

section

variable {r : Nat} {e : Tenant → Nat} (short : r < sumTenants e)
include short

theorem proportionOf_lt {t : Tenant} (h : 0 < e t) : proportionOf r e t < e t := by
  rw [proportionOf, Nat.div_lt_iff_lt_mul (Nat.zero_lt_of_lt short), Nat.mul_comm (e t)]
  exact Nat.mul_lt_mul_of_pos_right short h

omit short in
theorem sum_proportionOf_le : sumTenants (proportionOf r e) ≤ r := by
  calc sumTenants (proportionOf r e)
      ≤ (sumTenants fun t => r * e t) / sumTenants e := sumTenants_div_le _ _
    _ = r * sumTenants e / sumTenants e := by rw [sumTenants_mul]
    _ ≤ r := Nat.div_le_of_le_mul (le_of_eq (Nat.mul_comm _ _))

/-- R30: the leftover is less than the number of tenants that have an excess. -/
theorem leftoverOf_lt : leftoverOf r e < excessCount e := by
  have positive : 0 < sumTenants e := Nat.zero_lt_of_lt short
  have each : ∀ t, r * e t + (if 0 < e t then 1 else 0) ≤
      sumTenants e * (proportionOf r e t + if 0 < e t then 1 else 0) := fun t => by
    split
    · exact Nat.lt_mul_div_succ _ positive
    · next h => simp [Nat.eq_zero_of_not_pos h]
  have sum : r * sumTenants e + excessCount e ≤ sumTenants e * (sumTenants (proportionOf r e) + excessCount e) := by
    simpa only [sumTenants_add, sumTenants_mul, excessCount] using sumTenants_le each
  have counted : 0 < excessCount e := by
    by_contra none
    have zero : ∀ t, e t = 0 := fun t => by
      have one := (le_sumTenants (fun t => if 0 < e t then 1 else 0) t).trans (Nat.le_of_not_lt none)
      by_contra h
      simp [Nat.pos_of_ne_zero h] at one
    rw [funext zero] at positive
    exact absurd positive (by decide)
  have strict : sumTenants e * r < sumTenants e * (sumTenants (proportionOf r e) + excessCount e) := by
    rw [Nat.mul_comm _ r]
    omega
  have below := Nat.lt_of_mul_lt_mul_left strict
  rw [leftoverOf]
  omega

omit short in
/-- R30: a tenant receives a unit where the ranks pass the leftover. -/
theorem unitOf_eq (left : Nat) (t : Tenant) :
    unitOf left e t = min left (rankOf e t + if 0 < e t then 1 else 0) - min left (rankOf e t) := by
  unfold unitOf
  by_cases h : 0 < e t
  · simp only [h, true_and, if_true]
    split <;> omega
  · simp [h]

omit short in
/-- R30: the units go to the first tenants in ascending number that have an excess. -/
theorem sum_unitOf (left : Nat) : sumTenants (unitOf left e) = min left (excessCount e) := by
  have ranks : rankOf e 0 = 0 ∧ rankOf e 1 = (if 0 < e 0 then 1 else 0) ∧
      rankOf e 2 = (if 0 < e 0 then 1 else 0) + (if 0 < e 1 then 1 else 0) ∧
      rankOf e 3 = (if 0 < e 0 then 1 else 0) + (if 0 < e 1 then 1 else 0) + if 0 < e 2 then 1 else 0 := by
    simp [rankOf, sumTenants]
  obtain ⟨r0, r1, r2, r3⟩ := ranks
  simp only [excessCount, sumTenants, unitOf_eq, r0, r1, r2, r3]
  omega

theorem sum_shortage : sumTenants (proportionOf r e) + sumTenants (unitOf (leftoverOf r e) e) = r := by
  have below := leftoverOf_lt short
  have within := sum_proportionOf_le (r := r) (e := e)
  rw [sum_unitOf, Nat.min_eq_left (Nat.le_of_lt below), leftoverOf]
  omega

/-- R29, R30: the second and third stage leave no tenant more than its excess. -/
theorem proportionOf_add_unitOf_le (t : Tenant) : proportionOf r e t + unitOf (leftoverOf r e) e t ≤ e t := by
  unfold unitOf
  by_cases h : 0 < e t
  · have := proportionOf_lt short h
    split <;> omega
  · simp [proportionOf, Nat.eq_zero_of_not_pos h]

end

/-! ### Grants -/

theorem grantOf_not_admitted {t : Tenant} (h : adm t = false) : grantOf eff adm share q t = 0 := by simp [grantOf, h]

/-- R29: a remainder that covers every excess. -/
theorem grantOf_covered {t : Tenant} (h : adm t = true)
    (covered : sumTenants (excessOf eff adm share q) ≤ remainderOf eff adm share q) : grantOf eff adm share q t = q t := by
  simp [grantOf, h, covered]

/-- R30: a remainder that does not. -/
theorem grantOf_short (t : Tenant) (short : remainderOf eff adm share q < sumTenants (excessOf eff adm share q)) :
    grantOf eff adm share q t =
      stageOne eff adm share q t +
        (proportionOf (remainderOf eff adm share q) (excessOf eff adm share q) t +
          unitOf (leftoverOf (remainderOf eff adm share q) (excessOf eff adm share q)) (excessOf eff adm share q) t) := by
  cases h : adm t with
  | false =>
    rw [grantOf_not_admitted _ _ _ _ h, stageOne_not_admitted _ _ _ _ h, unitOf, proportionOf, excessOf_not_admitted _ _ _ _ h]
    simp
  | true =>
    simp only [grantOf, h, Bool.not_true, Bool.false_eq_true, if_false, if_neg (Nat.not_le_of_lt short)]
    rw [Nat.add_assoc]
    rfl

theorem stageOne_le_grantOf (t : Tenant) : stageOne eff adm share q t ≤ grantOf eff adm share q t := by
  by_cases covered : sumTenants (excessOf eff adm share q) ≤ remainderOf eff adm share q
  · cases h : adm t with
    | false => rw [stageOne_not_admitted _ _ _ _ h]; exact Nat.zero_le _
    | true =>
      rw [grantOf_covered _ _ _ _ h covered]
      exact stageOne_le eff adm share q t
  · rw [grantOf_short _ _ _ _ t (Nat.lt_of_not_le covered)]
    exact Nat.le_add_right _ _

theorem grantOf_le (t : Tenant) : grantOf eff adm share q t ≤ q t := by
  cases h : adm t with
  | false =>
    rw [grantOf_not_admitted _ _ _ _ h]
    exact Nat.zero_le _
  | true =>
    by_cases covered : sumTenants (excessOf eff adm share q) ≤ remainderOf eff adm share q
    · exact le_of_eq (grantOf_covered _ _ _ _ h covered)
    · have short := Nat.lt_of_not_le covered
      rw [grantOf_short _ _ _ _ t short, ← stageOne_add_excess eff adm share q h]
      exact Nat.add_le_add_left (proportionOf_add_unitOf_le short t) _

/-- R30: where the remainder does not cover the excesses, the grants use up the effective limit. -/
theorem sum_grantOf_short (shares : (sumTenants fun t => if adm t then share t else 0) ≤ 32)
    (short : remainderOf eff adm share q < sumTenants (excessOf eff adm share q)) :
    sumTenants (grantOf eff adm share q) = eff := by
  have first := sum_stageOne_le eff adm share q shares
  have rest := sum_shortage short
  rw [funext fun t => grantOf_short eff adm share q t short, sumTenants_add, sumTenants_add, rest, remainderOf]
  omega

/-- R32: the grants are within the effective limit. -/
theorem sum_grantOf_le (shares : (sumTenants fun t => if adm t then share t else 0) ≤ 32) :
    sumTenants (grantOf eff adm share q) ≤ eff := by
  by_cases covered : sumTenants (excessOf eff adm share q) ≤ remainderOf eff adm share q
  · have first := sum_stageOne_le eff adm share q shares
    have each : ∀ t, grantOf eff adm share q t ≤ stageOne eff adm share q t + excessOf eff adm share q t := fun t => by
      cases h : adm t with
      | false => rw [grantOf_not_admitted _ _ _ _ h]; exact Nat.zero_le _
      | true => rw [grantOf_covered _ _ _ _ h covered, stageOne_add_excess _ _ _ _ h]
    have sum := sumTenants_le each
    rw [sumTenants_add] at sum
    rw [remainderOf] at covered
    omega
  · exact le_of_eq (sum_grantOf_short eff adm share q shares (Nat.lt_of_not_le covered))

end

end Sys2Proof.Machine

namespace Sys2Proof.Machine

/-! ### The grants of a zone -/

theorem countP_rankOf (e : Tenant → Nat) (t : Tenant) :
    (allTenants.countP fun v => decide (v < t ∧ 0 < e v)) = rankOf e t := by
  simp only [countP_allTenants, decide_eq_true_eq, rankOf]

theorem countP_excessCount (e : Tenant → Nat) : (allTenants.countP fun v => decide (0 < e v)) = excessCount e := by
  simp only [countP_allTenants, decide_eq_true_eq, excessCount]

/-- R3: the shares of the admitted tenants are 32 in sum at most. -/
theorem QuotaBounded.shares {s : State} (h : QuotaBounded s) :
    (sumTenants fun t => if admitted s t then (s.tenant t).quota else 0) ≤ 32 := by
  simpa only [QuotaBounded, quotaSum, Bool.and_true] using h

/-- Settles O28: the grants are those of the three stages, and use up the effective limit where it does not cover the
requests. -/
theorem grants : Obligations.Grants := by
  intro s z bounded
  have shares := bounded.shares
  have first : ∀ t, (if admitted s t = true then min (requestOf s z t) (effLimitOf s z * (s.tenant t).quota / 32) else 0) =
      stageOne (effLimitOf s z) (admitted s) (fun u => (s.tenant u).quota) (requestOf s z) t := fun t =>
    (stageOne_eq _ _ (fun u => (s.tenant u).quota) _ t).symm
  simp only [pass_zone, pass_cell, first, countP_rankOf]
  refine ⟨sum_stageOne_le _ _ _ _ shares, fun t h => grantOf_not_admitted _ _ _ _ h,
    fun covered t h => grantOf_covered _ _ _ _ h covered, fun short => ⟨fun t _ => ?_, fun t => ⟨grantOf_le _ _ _ _ t, fun h => ?_⟩,
      ?_, sum_grantOf_short _ _ _ _ shares short⟩, fun t => rfl⟩
  · exact (grantOf_short _ _ _ _ t short).trans (Nat.add_assoc _ _ _).symm
  · exact proportionOf_lt short h
  · rw [countP_excessCount]
    exact leftoverOf_lt short

end Sys2Proof.Machine

namespace Sys2Proof.Machine

/-! ### What the results of a pass keep within (R32) -/

theorem effLimitOf_le_live (s : State) (z : Zone) : effLimitOf s z ≤ (s.zone z).live := by
  have factor := derateFactor_le s z
  by_cases dark : inService s z = false ∨ dimmed s z = true
  · rw [effLimitOf_dark s z dark]
    exact Nat.zero_le _
  · have service : inService s z = true := by simpa using fun h => dark (.inl h)
    have lit : dimmed s z = false := by simpa using fun h => dark (.inr h)
    rw [effLimitOf_lit s z service lit]
    exact Nat.div_le_of_le_mul (by rw [Nat.mul_comm 32]; exact Nat.mul_le_mul_left _ factor)

theorem gainOf_le {request grant : Nat} (h : grant ≤ request) : gainOf request grant ≤ 256 := by
  unfold gainOf
  split
  · decide
  · exact Nat.div_le_of_le_mul (by rw [Nat.mul_comm request]; exact Nat.mul_le_mul_left _ h)

theorem gainOf_zero (request : Nat) : gainOf request 0 = 0 := by simp [gainOf]

theorem admitted_of_active {s : State} {t : Tenant} (h : (s.tenant t).state = .active) : admitted s t = true := by
  simp [admitted, h]

/-- R30: an effective limit below the requests in sum does not cover the excesses. -/
theorem short_of_lt {eff : Nat} {adm : Tenant → Bool} {share q : Tenant → Nat}
    (shares : (sumTenants fun t => if adm t then share t else 0) ≤ 32) (idle : ∀ t, adm t = false → q t = 0)
    (h : eff < sumTenants q) : remainderOf eff adm share q < sumTenants (excessOf eff adm share q) := by
  have each : ∀ t, q t = stageOne eff adm share q t + excessOf eff adm share q t := fun t => by
    cases ha : adm t with
    | false => rw [idle t ha, stageOne_not_admitted _ _ _ _ ha, excessOf_not_admitted _ _ _ _ ha]
    | true => exact (stageOne_add_excess _ _ _ _ ha).symm
  have first := sum_stageOne_le eff adm share q shares
  rw [funext each, sumTenants_add] at h
  simp only [remainderOf]
  omega

/-- Settles O29: the bounds on the allotment and the headroom, wherever the results are fresh. -/
theorem allotmentBounds : Obligations.AllotmentBounds := by
  intro s z bounded limits ⟨limit, cells⟩
  have shares := bounded.shares
  have request : ∀ t, (s.cell z t).request = requestOf s z t := fun t => (cells t).1
  have grant : ∀ t, (s.cell z t).grant = zoneGrant s z (effLimitOf s z) t := fun t => (cells t).2.1
  have gain : ∀ t, (s.cell z t).gain = gainOf (s.cell z t).request (s.cell z t).grant := fun t => (cells t).2.2
  have within : ∀ t, (s.cell z t).grant ≤ (s.cell z t).request := fun t => by
    rw [grant, request]
    exact grantOf_le _ _ _ _ t
  have total : sumTenants (fun t => (s.cell z t).grant) ≤ (s.zone z).effLimit := by
    rw [limit, funext grant]
    exact sum_grantOf_le _ _ _ _ shares
  have dark : (s.zone z).effLimit = 0 → ∀ t, (s.cell z t).grant = 0 := fun zero t =>
    Nat.eq_zero_of_le_zero ((le_sumTenants (fun u => (s.cell z u).grant) t).trans (total.trans (le_of_eq zero)))
  have idle : ∀ t, (s.tenant t).state ≠ .active → (s.cell z t).request = 0 := fun t h =>
    (request t).trans (requestOf_inactive s z h)
  refine ⟨⟨total, limit ▸ effLimitOf_le_live s z, (limits z).1⟩, fun t => ⟨within t, ?_⟩, fun t active => ?_, fun zero t => ?_,
    fun h => dark (limit.trans (effLimitOf_dark s z h)), fun t h => ⟨idle t h, ?_⟩, rfl, fun short => ?_⟩
  · rw [gain]
    exact gainOf_le (within t)
  · have floor := stageOne_le_grantOf (effLimitOf s z) (admitted s) (fun u => (s.tenant u).quota) (requestOf s z) t
    rw [stageOne_eq, if_pos (admitted_of_active active)] at floor
    rw [limit, request, grant]
    exact floor
  · rw [gain, dark zero t]
    exact ⟨rfl, gainOf_zero _⟩
  · exact Nat.eq_zero_of_le_zero ((within t).trans (le_of_eq (idle t h)))
  · rw [limit, funext request] at short
    have vacant : ∀ t, admitted s t = false → requestOf s z t = 0 := fun t h =>
      requestOf_inactive s z fun active => by simp [admitted_of_active active] at h
    have used := sum_grantOf_short _ _ _ _ shares (short_of_lt shares vacant short)
    rw [headroom, grantTotal, limit, funext grant]
    exact Nat.sub_eq_zero_of_le (le_of_eq used.symm)

end Sys2Proof.Machine

namespace Sys2Proof.Machine

/-! ### Queueing a SET, by the state of the queue (R113) -/

theorem State.modLink_congr (s : State) (f : FPort) {g h : LinkRec → LinkRec} (e : g (s.link f) = h (s.link f)) :
    s.modLink f g = s.modLink f h := by
  have same : g (tget s.links f) = h (tget s.links f) := e
  simp only [State.modLink, tmod, same]

/-- Changes of a link and of a remote record commute. -/
theorem State.modLink_modRemote (s : State) (f : FPort) (z : Zone) (g : LinkRec → LinkRec) (h : RemoteRec → RemoteRec) :
    (s.modRemote z h).modLink f g = (s.modLink f g).modRemote z h := rfl

/-- R110: what starts a transmitter whose queue holds a frame. -/
theorem startQueued_of_cons (s : State) (f : FPort) (h : (s.link f).queue ≠ []) :
    startQueued f s = s.modLink f fun l =>
      { l with
        sending :=
          if s.starting = false ∧ l.locked = true ∧ l.sending = .nothing ∧ l.round = none then .queued else l.sending } := by
  have idle : s = s.modLink f fun l => l := by
    have links : tmod s.links f (fun l => l) = s.links := tset_tget s.links f
    simp only [State.modLink, links]
  unfold startQueued
  simp only [Bool.and_eq_true, Bool.not_eq_true', beq_iff_eq, Option.isNone_iff_eq_none, List.isEmpty_eq_false_iff]
  split
  · next starts =>
    obtain ⟨⟨⟨⟨running, locked⟩, nothing⟩, noRound⟩, _⟩ := starts
    exact State.modLink_congr s f (by simp only [running, locked, nothing, noRound, and_self, if_true])
  · next stays =>
    refine idle.trans (State.modLink_congr s f ?_)
    have not : ¬ (s.starting = false ∧ (s.link f).locked = true ∧ (s.link f).sending = .nothing ∧ (s.link f).round = none) :=
      fun ⟨running, locked, nothing, noRound⟩ => stays ⟨⟨⟨⟨running, locked⟩, nothing⟩, noRound⟩, h⟩
    rw [if_neg not]

section

variable {s : State} {z : Zone} {b : Binding} (bound : (s.zone z).binding = some b)
include bound

theorem queueSet_waiting (waits : setWaiting (s.link b.port) b.pos = true) :
    queueSet z s = s.modLink b.port fun l => { l with queue := coalesce l b.pos (s.zone z).effLimit (muteOf s z) } := by
  simp only [queueSet, bound, waits, if_true]

theorem queueSet_room (unset : setWaiting (s.link b.port) b.pos = false) (room : (s.link b.port).queue.length < 4) :
    queueSet z s =
      (s.modLink b.port fun l =>
        { l with
          queue := l.queue ++ [.set b.pos (s.zone z).effLimit (muteOf s z)]
          sending :=
            if s.starting = false ∧ l.locked = true ∧ l.sending = .nothing ∧ l.round = none then .queued
            else l.sending }).modRemote z fun r => { r with setOwed := false } := by
  simp only [queueSet, bound, unset, room, Bool.false_eq_true, if_false, if_true]
  rw [startQueued_of_cons _ _ (by
    change ((s.modLink b.port _).link b.port).queue ≠ []
    simp)]
  rw [State.modLink_modRemote, State.modLink_modLink]
  rfl

theorem queueSet_full (unset : setWaiting (s.link b.port) b.pos = false) (full : 4 ≤ (s.link b.port).queue.length) :
    queueSet z s = s.modRemote z fun r => { r with setOwed := true } := by
  simp only [queueSet, bound, unset, Nat.not_lt.mpr full, Bool.false_eq_true, if_false]

end

/-! ### The frames that wait -/

theorem isSetTo_iff {p : Pos} {fr : Frame} : isSetTo p fr = true ↔ ∃ limit mute, fr = .set p limit mute := by
  cases fr with
  | set q limit mute =>
    simp only [isSetTo, beq_iff_eq, Frame.set.injEq]
    exact ⟨fun e => ⟨limit, mute, e, rfl, rfl⟩, fun ⟨_, _, e, _⟩ => e⟩
  | chainMute => simp only [isSetTo, Bool.false_eq_true, reduceCtorEq, exists_false]

theorem setWaiting_iff {l : LinkRec} {p : Pos} :
    setWaiting l p = true ↔ ∃ limit mute, Frame.set p limit mute ∈ waitingFrames l := by
  simp only [setWaiting, List.any_eq_true, isSetTo_iff]
  constructor
  · rintro ⟨_, mem, limit, mute, rfl⟩
    exact ⟨limit, mute, mem⟩
  · rintro ⟨limit, mute, mem⟩
    exact ⟨_, mem, limit, mute, rfl⟩

theorem mem_coalesce {l : LinkRec} {p : Pos} (h : setWaiting l p = true) (limit : Nat) (mute : Bool) :
    Frame.set p limit mute ∈ coalesce l p limit mute := by
  obtain ⟨old, oldMute, mem⟩ := setWaiting_iff.mp h
  exact List.mem_append_right _ (List.mem_map.mpr ⟨_, mem, by simp [isSetTo]⟩)

/-- R36, R112: a SET for a bound zone is in its port's queue, or owed. -/
theorem queueSet_queued_or_owed {s : State} {z : Zone} {b : Binding} (bound : (s.zone z).binding = some b) :
    Frame.set b.pos (s.zone z).effLimit (muteOf s z) ∈ ((queueSet z s).link b.port).queue ∨
      ((queueSet z s).remote z).setOwed = true := by
  cases waits : setWaiting (s.link b.port) b.pos with
  | true =>
    rw [queueSet_waiting bound waits, State.link_modLink_same]
    exact .inl (mem_coalesce waits _ _)
  | false =>
    by_cases room : (s.link b.port).queue.length < 4
    · refine .inl ?_
      rw [queueSet_room bound waits room]
      change _ ∈ ((s.modLink b.port _).link b.port).queue
      simp
    · refine .inr ?_
      rw [queueSet_full bound waits (Nat.le_of_not_lt room), State.remote_modRemote_same]

/-- Settles O30: a pass queues a SET exactly where it changes the effective limit of a bound zone, and queueing takes
one of three courses. -/
theorem owedSets : Obligations.OwedSets := by
  intro s z
  have limit : ((pass z s).zone z).effLimit = effLimitOf s z := by rw [pass_zone]
  refine ⟨fun unowed => ?_, fun b bound => ⟨fun changed => ?_, fun waits => ?_, fun unset room => ?_, fun unset full => ?_⟩⟩
  · have owesNot : owes s z = false := by
      rw [limit] at unowed
      rcases unowed with unbound | same
      · simp [owes, unbound]
      · simp [owes, same]
    rw [pass_eq, owesNot]
    exact ⟨rfl, rfl⟩
  · rw [limit] at changed
    have owesOne : owes s z = true := by
      simpa [owes, bound] using changed
    have zone : (passResults z s).zone z = { s.zone z with effLimit := effLimitOf s z } := by rw [passResults_zone, if_pos rfl]
    have queued := queueSet_queued_or_owed (s := passResults z s) (z := z) (b := b) (by rw [zone]; exact bound)
    rw [limit, pass_eq, if_pos owesOne]
    rw [zone] at queued
    exact queued
  · refine (queueSet_waiting bound (setWaiting_iff.mpr waits)).trans (State.modLink_congr _ _ ?_)
    simp only [coalesce, LinkRec.mk.injEq, and_true, true_and]
    refine congrArg _ (List.map_congr_left fun fr _ => ?_)
    cases fr with
    | set p l m => simp [isSetTo, muteOf]
    | chainMute => simp [isSetTo]
  · have none := Bool.eq_false_iff.mpr fun h => (setWaiting_iff.mp h).elim fun l ⟨m, mem⟩ => unset l m mem
    exact queueSet_room bound none room
  · have none := Bool.eq_false_iff.mpr fun h => (setWaiting_iff.mp h).elim fun l ⟨m, mem⟩ => unset l m mem
    exact queueSet_full bound none full

end Sys2Proof.Machine

namespace Sys2Proof.Machine

/-! ### Composites and uplinks (R37 to R39) -/

theorem shares_waiting {s : State} {z : Zone} {t : Tenant} (h : ∀ m, moveAt s z t = some m → m.state = .waiting) :
    shares s z t = [((s.cell z t).home, 32)] := by
  unfold shares
  cases hm : moveAt s z t with
  | none => rfl
  | some m => simp only [h m hm, reduceCtorEq, if_false]

theorem shares_ramping {s : State} {z : Zone} {t : Tenant} {m : Move} (hm : moveAt s z t = some m) (hr : m.state = .ramping) :
    shares s z t = [(m.src, 32 - m.weight), (m.dst, m.weight)] := by
  simp only [shares, hm, hr, if_true]

/-- R37: what one share of a cell contributes to the composite downlink. -/
def carrierOf (s : State) (z : Zone) (t : Tenant) (d : Dest) (w : Nat) : List Carrier :=
  match d with
  | .dark => []
  | .sector k => if tget (s.tenant t).presence k = true then [⟨t, k, w, (s.cell z t).gain⟩] else []

theorem carriers_eq {s : State} {z : Zone} {t : Tenant} (h : (s.cell z t).gain ≠ 0) :
    carriers s z t = (shares s z t).flatMap fun x => carrierOf s z t x.1 x.2 := by
  simp only [carriers, if_neg h, List.filterMap_eq_flatMap_toList]
  refine List.flatMap_congr fun ⟨d, w⟩ _ => ?_
  cases d with
  | dark => rfl
  | sector k =>
    simp only [carrierOf]
    split <;> rfl

theorem carriers_waiting {s : State} {z : Zone} {t : Tenant} (h : (s.cell z t).gain ≠ 0)
    (hm : ∀ m, moveAt s z t = some m → m.state = .waiting) : carriers s z t = carrierOf s z t (s.cell z t).home 32 := by
  rw [carriers_eq h, shares_waiting hm, List.flatMap_singleton]

theorem carriers_ramping {s : State} {z : Zone} {t : Tenant} {m : Move} (h : (s.cell z t).gain ≠ 0)
    (hm : moveAt s z t = some m) (hr : m.state = .ramping) :
    carriers s z t = carrierOf s z t m.src (32 - m.weight) ++ carrierOf s z t m.dst m.weight := by
  rw [carriers_eq h, shares_ramping hm hr, List.flatMap_cons, List.flatMap_singleton]

theorem composite_bound {s : State} {z : Zone} {b : Binding} (h : (s.zone z).binding = some b) :
    composite s z = some (b, carriers s z 0 ++ carriers s z 1 ++ carriers s z 2 ++ carriers s z 3) := by
  simp only [composite, h, Option.map_some, allTenants, List.flatMap_cons, List.flatMap_nil, List.append_nil, List.append_assoc]

/-- R39: the zones that a sector's uplink is heard from. -/
theorem mem_uplink {s : State} {t : Tenant} {k : Sector} {l : List (Zone × Nat)} (h : uplink s t k = some l) (z : Zone)
    (n : Nat) : (z, n) ∈ l ↔ inService s z = true ∧ (Dest.sector k, n) ∈ shares s z t := by
  unfold uplink at h
  split at h
  · obtain rfl := Option.some.inj h
    simp only [List.mem_flatMap, List.mem_filter, List.mem_filterMap, allZones, List.mem_finRange, true_and]
    constructor
    · rintro ⟨y, service, ⟨d, w⟩, mem, e⟩
      split at e
      · next hd =>
        obtain ⟨rfl, rfl⟩ := Prod.mk.inj (Option.some.inj e)
        exact ⟨service, hd ▸ mem⟩
      · exact nomatch e
    · rintro ⟨service, mem⟩
      exact ⟨z, service, _, mem, if_pos rfl⟩
  · exact nomatch h

theorem uplink_isSome (s : State) (t : Tenant) (k : Sector) :
    (uplink s t k).isSome = true ↔ (s.tenant t).state = .active ∧ k.val < (s.tenant t).sectorCount := by
  have active : (isActive s t && decide (k.val < (s.tenant t).sectorCount)) = true ↔
      (s.tenant t).state = .active ∧ k.val < (s.tenant t).sectorCount := by
    simp only [isActive, Bool.and_eq_true, beq_iff_eq, decide_eq_true_eq]
  rw [← active]
  unfold uplink
  split
  · next h => simp [h]
  · next h => simp [h]

theorem mem_shares {s : State} {z : Zone} {t : Tenant} {k : Sector} {n : Nat} :
    (Dest.sector k, n) ∈ shares s z t ↔
      ((∀ m, moveAt s z t = some m → m.state = .waiting) ∧ (s.cell z t).home = .sector k ∧ n = 32) ∨
        ∃ m, moveAt s z t = some m ∧ m.state = .ramping ∧
          ((m.src = .sector k ∧ n = 32 - m.weight) ∨ (m.dst = .sector k ∧ n = m.weight)) := by
  by_cases waiting : ∀ m, moveAt s z t = some m → m.state = .waiting
  · have still : ¬ ∃ m, moveAt s z t = some m ∧ m.state = .ramping ∧
        ((m.src = .sector k ∧ n = 32 - m.weight) ∨ (m.dst = .sector k ∧ n = m.weight)) := fun ⟨m, hm, hr, _⟩ =>
      nomatch (waiting m hm).symm.trans hr
    rw [shares_waiting waiting, List.mem_singleton, Prod.mk.injEq, eq_comm (a := Dest.sector k)]
    exact ⟨fun h => .inl ⟨waiting, h⟩, fun h => (h.resolve_right still).2⟩
  · obtain ⟨m, hm, hr⟩ : ∃ m, moveAt s z t = some m ∧ m.state = .ramping := by
      simp only [not_forall] at waiting
      obtain ⟨m, hm, hw⟩ := waiting
      cases hs : m.state with
      | waiting => exact absurd hs hw
      | ramping => exact ⟨m, hm, hs⟩
    simp only [shares_ramping hm hr, List.mem_cons, List.not_mem_nil, or_false, Prod.mk.injEq, waiting, false_and, false_or]
    constructor
    · rintro (⟨src, w⟩ | ⟨dst, w⟩)
      · exact ⟨m, hm, hr, .inl ⟨src.symm, w⟩⟩
      · exact ⟨m, hm, hr, .inr ⟨dst.symm, w⟩⟩
    · rintro ⟨m', hm', _, ends⟩
      obtain rfl := Option.some.inj (hm.symm.trans hm')
      exact ends.imp (fun ⟨src, w⟩ => ⟨src.symm, w⟩) fun ⟨dst, w⟩ => ⟨dst.symm, w⟩

/-- Settles O31: the composite downlink of a zone and the uplink of a sector. -/
theorem composites : Obligations.Composites := by
  intro s z t
  refine ⟨fun unbound => ?_, fun b bound => composite_bound bound, fun zero => ?_, fun gain hm => carriers_waiting gain hm,
    fun gain m hm hr => carriers_ramping gain hm hr, fun k => ⟨uplink_isSome s t k, fun l hl n => ?_⟩⟩
  · simp only [composite, unbound, Option.map_none]
  · simp only [carriers, zero, if_true]
  · rw [mem_uplink hl, mem_shares]

end Sys2Proof.Machine

namespace Sys2Proof.Machine

/-! ### The cell that is admitted next (R44 to R46) -/

variable {s : State} {t : Tenant} {z : Zone}

theorem mem_roundRobin (p t : Tenant) : t ∈ roundRobin p := by
  revert p t
  decide

/-- A search through a table's indices in ascending order finds the lowest. -/
theorem find?_finRange_eq_some {n : Nat} {p : Fin n → Bool} {i : Fin n} :
    (List.finRange n).find? p = some i ↔ p i = true ∧ ∀ j, j < i → p j = false := by
  rw [List.find?_eq_some_iff_append]
  refine and_congr_right fun hi => ⟨?_, fun lowest => ?_⟩
  · rintro ⟨before, after, e, none⟩ j hj
    have sorted := List.pairwise_lt_finRange n
    have mem := List.mem_finRange j
    rw [e] at sorted mem
    rw [List.pairwise_append, List.pairwise_cons] at sorted
    obtain ⟨_, ⟨behind, _⟩, _⟩ := sorted
    rcases List.mem_append.mp mem with hm | hm
    · simpa using none j hm
    · rcases List.mem_cons.mp hm with rfl | hm
      · exact absurd hj (lt_irrefl _)
      · exact absurd (behind j hm) (lt_asymm hj)
  · obtain ⟨before, after, e⟩ := List.append_of_mem (List.mem_finRange i)
    refine ⟨before, after, e, fun j hj => ?_⟩
    have sorted := List.pairwise_lt_finRange n
    rw [e, List.pairwise_append] at sorted
    obtain ⟨_, _, ahead⟩ := sorted
    simp [lowest j (ahead j hj i List.mem_cons_self)]

theorem lowestPending_some : lowestPending s t = some z ↔
    pendingCell s z t = true ∧ ∀ y, y < z → pendingCell s y t = false := find?_finRange_eq_some

theorem lowestPending_none : lowestPending s t = none ↔ ∀ z, pendingCell s z t = false := by
  simp [lowestPending, allZones]

/-- R46: what the arbiter tells of one tenant. -/
theorem tenantTurn_none :
    (if moveCount s t < 16 then (lowestPending s t).map fun z => (t, z) else none) = none ↔
      16 ≤ moveCount s t ∨ ∀ z, pendingCell s z t = false := by
  rw [← lowestPending_none]
  split
  · next h => simp [Nat.not_le.mpr h]
  · next h => simp [Nat.not_lt.mp h]

/-- R44, R45: nothing can be admitted. -/
theorem nextAdmission_none : nextAdmission s = none ↔
    32 ≤ s.moves.length ∨ ∀ t, 16 ≤ moveCount s t ∨ ∀ z, pendingCell s z t = false := by
  unfold nextAdmission
  split
  · next room =>
    simp only [List.findSome?_eq_none_iff, tenantTurn_none, Nat.not_le.mpr room, false_or]
    exact ⟨fun h t => h t (mem_roundRobin _ t), fun h t _ => h t⟩
  · next full => simp [Nat.not_lt.mp full]

/-- R46: the cell admitted next is the lowest pending one of the first tenant in round-robin order that has one and
room. -/
theorem nextAdmission_some (h : nextAdmission s = some (t, z)) :
    s.moves.length < 32 ∧ moveCount s t < 16 ∧ pendingCell s z t = true ∧ (∀ y, y < z → pendingCell s y t = false) ∧
      ∃ before after, roundRobin s.admitPos = before ++ t :: after ∧
        ∀ v ∈ before, 16 ≤ moveCount s v ∨ ∀ y, pendingCell s y v = false := by
  unfold nextAdmission at h
  split at h
  · next room =>
    obtain ⟨before, u, after, e, hu, none⟩ := List.findSome?_eq_some_iff.mp h
    split at hu
    · next few =>
      obtain ⟨y, hy, pair⟩ := Option.map_eq_some_iff.mp hu
      cases pair
      obtain ⟨pend, lowest⟩ := lowestPending_some.mp hy
      exact ⟨room, few, pend, lowest, before, after, e, fun v hv => tenantTurn_none.mp (none v hv)⟩
    · cases hu
  · cases h

/-- R44: an admission keeps the bounds of the queue. -/
theorem bounded_admitNext (h : MoveQueueBounded s) : MoveQueueBounded (admitNext s) := by
  rcases e : nextAdmission s with _ | ⟨t, z⟩
  · rwa [admitNext_none e]
  · obtain ⟨room, few, _⟩ := nextAdmission_some e
    obtain ⟨_, counts, slots, keys, weights⟩ := h
    have keys' := keys_admitNext keys
    rw [admitNext_some e] at keys' ⊢
    refine ⟨by simpa using room, fun u => ?_, ?_, keys', fun m hm => ?_⟩
    · have own : moveCount { s with moves := s.moves ++ [newMove s z t], admitPos := t } u =
          moveCount s u + if t = u then 1 else 0 := by simp [moveCount, newMove, List.countP_cons]
      rw [own]
      split
      · next e => exact e ▸ few
      · exact counts u
    · have same : rampingCount { s with moves := s.moves ++ [newMove s z t], admitPos := t } = rampingCount s := by
        simp [rampingCount, newMove]
      rwa [same]
    · rcases List.mem_append.mp hm with hm | hm
      · exact weights m hm
      · rw [List.mem_singleton.mp hm]
        exact Nat.zero_le _

theorem bounded_iterate_admitNext (n : Nat) (h : MoveQueueBounded s) : MoveQueueBounded (admitNext^[n] s) := by
  induction n generalizing s with
  | zero => exact h
  | succ n ih => exact ih (bounded_admitNext h)

theorem admitNext_length (h : nextAdmission s ≠ none) : (admitNext s).moves.length = s.moves.length + 1 := by
  obtain ⟨⟨t, z⟩, e⟩ := Option.ne_none_iff_exists'.mp h
  simp [admitNext_some e]

/-- R44, R46: each admission lengthens the queue, so as many as it has room for leave none to be admitted. -/
theorem admitPending_complete (n : Nat) (h : 32 ≤ s.moves.length + n) : nextAdmission (admitPending n s) = none := by
  induction n generalizing s with
  | zero => exact nextAdmission_none.mpr (.inl h)
  | succ n ih =>
    unfold admitPending
    split
    · next e => exact Option.isNone_iff_eq_none.mp e
    · next e =>
      have longer := admitNext_length (by simpa using e)
      exact ih (by omega)

/-- R45: admitted moves stand WAITING behind the moves that the queue held. -/
theorem iterate_admitNext_moves (n : Nat) (s : State) :
    ∃ new, (admitNext^[n] s).moves = s.moves ++ new ∧ ∀ m ∈ new, m.state = .waiting := by
  induction n generalizing s with
  | zero => exact ⟨[], by simp, by simp⟩
  | succ n ih =>
    obtain ⟨new, e, waiting⟩ := ih (admitNext s)
    rw [Function.iterate_succ_apply, e]
    rcases next : nextAdmission s with _ | ⟨t, z⟩
    · exact ⟨new, by rw [admitNext_none next], waiting⟩
    · refine ⟨newMove s z t :: new, by simp [admitNext_some next], fun m hm => ?_⟩
      rcases List.mem_cons.mp hm with rfl | hm
      · rfl
      · exact waiting m hm

/-! ### Ramp slots by age (R49) -/

/-- R49: nothing waits for a ramp slot that could have one. -/
def SlotsUsed (s : State) : Prop := 8 ≤ rampingCount s ∨ ∀ m ∈ s.moves, m.state = .ramping

theorem nothingHeldBack_iff : NothingHeldBack s ↔ nextAdmission s = none ∧ SlotsUsed s := by
  rw [nextAdmission_none]
  rfl

theorem state_ramping {m : Move} (h : m.state ≠ .waiting) : m.state = .ramping := by
  cases e : m.state with
  | waiting => exact absurd e h
  | ramping => rfl

/-- R49: the oldest WAITING move starts in its place, behind RAMPING moves alone. -/
theorem startRamping_oldest {m : Move} (keys : (s.moves.map moveKey).Nodup) (h : oldestWaiting s = some m) :
    m.state = .waiting ∧ ∃ older younger, s.moves = older ++ m :: younger ∧ (∀ n ∈ older, n.state = .ramping) ∧
      (startRamping m s).moves = older ++ { m with state := .ramping } :: younger := by
  obtain ⟨hw, older, younger, e, ramping⟩ := List.find?_eq_some_iff_append.mp h
  rw [beq_iff_eq] at hw
  refine ⟨hw, older, younger, e, fun n hn => state_ramping (by simpa using ramping n hn), ?_⟩
  rw [e, List.map_append, List.map_cons, List.nodup_append, List.nodup_cons] at keys
  obtain ⟨_, ⟨behind, _⟩, ahead⟩ := keys
  have other : ∀ n, moveKey n ≠ moveKey m →
      (if n.zone == m.zone && n.tenant == m.tenant then { n with state := MoveState.ramping } else n) = n := fun n hn =>
    if_neg (by simpa [moveKey] using hn)
  have kept : ∀ l : List Move, (∀ n ∈ l, moveKey n ≠ moveKey m) →
      l.map (fun n => if n.zone == m.zone && n.tenant == m.tenant then { n with state := MoveState.ramping } else n) = l :=
    fun l hl => (List.map_congr_left fun n hn => other n (hl n hn)).trans (List.map_id' l)
  rw [startRamping, State.modMove, e, List.map_append, List.map_cons,
    kept older fun n hn => ahead _ (List.mem_map_of_mem hn) _ List.mem_cons_self,
    kept younger fun n hn k => behind (k ▸ List.mem_map_of_mem hn)]
  simp

theorem rampingCount_startRamping {m : Move} (keys : (s.moves.map moveKey).Nodup) (h : oldestWaiting s = some m) :
    rampingCount (startRamping m s) = rampingCount s + 1 := by
  obtain ⟨hw, older, younger, e, _, started⟩ := startRamping_oldest keys h
  rw [rampingCount, started, rampingCount, e]
  simp [hw]
  omega

/-- R49: slot granting leaves nothing to start, and no more than 8 moves RAMPING. -/
theorem grantSlots_complete (n : Nat) (keys : (s.moves.map moveKey).Nodup) (slots : rampingCount s ≤ 8)
    (h : 8 ≤ rampingCount s + n) : rampingCount (grantSlots n s) ≤ 8 ∧ SlotsUsed (grantSlots n s) := by
  induction n generalizing s with
  | zero => exact ⟨slots, .inl h⟩
  | succ n ih =>
    unfold grantSlots
    split
    · split
      · next m hm =>
        have one := rampingCount_startRamping keys hm
        exact ih (keys_startRamping m keys) (by omega) (by omega)
      · next none =>
        refine ⟨slots, .inr fun m hm => state_ramping ?_⟩
        simpa using List.find?_eq_none.mp none m hm
    · next full => exact ⟨slots, .inl (Nat.not_lt.mp full)⟩

/-- R49: a move that stands RAMPING behind one that WAITS was RAMPING before. -/
theorem grantSlots_byAge (n : Nat) (keys : (s.moves.map moveKey).Nodup) {i j : Nat} {l m : Move} (hij : i < j)
    (hl : (grantSlots n s).moves[i]? = some l) (hm : (grantSlots n s).moves[j]? = some m) (waits : l.state = .waiting) :
    s.moves[j]? = some m := by
  induction n generalizing s with
  | zero => exact hm
  | succ n ih =>
    unfold grantSlots at hl hm
    split at hl
    · next room =>
      rw [if_pos room] at hm
      rcases ho : oldestWaiting s with _ | x
      · rw [ho] at hm
        exact hm
      · rw [ho] at hl hm
        have was := ih (keys_startRamping x keys) hl hm
        obtain ⟨_, older, younger, e, ramping, started⟩ := startRamping_oldest keys ho
        have behind : older.length ≠ j := by
          rintro rfl
          obtain ⟨_, same⟩ := grantSlots_started n (startRamping x s)
          have ahead : older[i]? = some older[i] := List.getElem?_eq_getElem hij
          have hi : (startRamping x s).moves[i]? = some older[i] := by
            rw [started, List.getElem?_append_left hij, ahead]
          obtain ⟨hl', el⟩ := List.getElem?_eq_some_iff.mp hl
          obtain ⟨hi', ei⟩ := List.getElem?_eq_some_iff.mp hi
          have start := same.get hi' hl'
          simp only [List.get_eq_getElem, ei, el] at start
          rcases start with rfl | ⟨w, _⟩
          · exact nomatch waits.symm.trans (ramping _ (List.getElem_mem _))
          · exact nomatch w.symm.trans (ramping _ (List.getElem_mem _))
        rw [started] at was
        rw [e, ← was]
        rcases Nat.lt_or_gt_of_ne behind with h | h
        · obtain ⟨k, rfl⟩ := Nat.exists_eq_add_of_lt h
          simp [List.getElem?_append_right, Nat.add_assoc]
        · rw [List.getElem?_append_left h, List.getElem?_append_left h]
    · next full =>
      rw [if_neg full] at hm
      exact hm

end Sys2Proof.Machine

namespace Sys2Proof.Machine

/-! ### What the laws of the queue read -/

/-- What the bounds of the queue count of a move: its cell, and whether it has started. -/
def moveStamp (m : Move) : (Zone × Tenant) × MoveState := (moveKey m, m.state)

theorem keys_of_stamps {l k : List Move} (h : l.map moveStamp = k.map moveStamp) : l.map moveKey = k.map moveKey := by
  have fst := congrArg (List.map Prod.fst) h
  rwa [List.map_map, List.map_map] at fst

/-- From `s` to `t` no move has come into the queue or started, and weights have stayed in their range. The first is told
of queues with one move to a cell (R44), because a change of target writes a cell's move wherever it finds the cell. -/
structure Thins (s t : State) : Prop where
  stamps : (s.moves.map moveKey).Nodup → (t.moves.map moveStamp).Sublist (s.moves.map moveStamp)
  weights : (∀ m ∈ s.moves, m.weight ≤ 32) → ∀ m ∈ t.moves, m.weight ≤ 32

/-- From `s` to `t` the queue has stayed as it is and no cell has become pending. -/
structure Calm (s t : State) : Prop where
  moves : t.moves = s.moves
  pending : ∀ z u, pendingCell t z u = true → pendingCell s z u = true

/-- What an event owes the laws of the queue. -/
structure KeepsQueue (s t : State) : Prop where
  bounded : MoveQueueBounded s → MoveQueueBounded t
  held : MoveQueueBounded s → NothingHeldBack s → NothingHeldBack t

variable {b s t u : State}

theorem thins_of_moves (h : t.moves = s.moves) : Thins s t := by
  refine ⟨fun _ => ?_, ?_⟩ <;> rw [h]
  exact id

theorem Thins.refl (s : State) : Thins s s := thins_of_moves rfl

theorem Thins.keys (h : Thins s t) (keys : (s.moves.map moveKey).Nodup) : (t.moves.map moveKey).Nodup := by
  have kept := (h.stamps keys).map Prod.fst
  rw [List.map_map, List.map_map] at kept
  exact keys.sublist kept

theorem Thins.trans (h : Thins s t) (k : Thins t u) : Thins s u :=
  ⟨fun keys => (k.stamps (h.keys keys)).trans (h.stamps keys), fun w => k.weights (h.weights w)⟩

theorem Calm.refl (s : State) : Calm s s := ⟨rfl, fun _ _ => id⟩

theorem Calm.trans (h : Calm s t) (k : Calm t u) : Calm s u :=
  ⟨k.moves.trans h.moves, fun z v e => h.pending z v (k.pending z v e)⟩

theorem Calm.thins (h : Calm s t) : Thins s t := thins_of_moves h.moves

theorem KeepsQueue.refl (s : State) : KeepsQueue s s := ⟨id, fun _ => id⟩

theorem KeepsQueue.trans (h : KeepsQueue s t) (k : KeepsQueue t u) : KeepsQueue s u :=
  ⟨fun hb => k.bounded (h.bounded hb), fun hb hn => k.held (h.bounded hb) (h.held hb hn)⟩

/-- R44: the bounds read the cells of the moves, how many have started, and the weights. -/
theorem Thins.bounded (h : Thins s t) (hb : MoveQueueBounded s) : MoveQueueBounded t := by
  obtain ⟨length, counts, slots, keys, weights⟩ := hb
  have stamps := h.stamps keys
  have shorter := stamps.length_le
  rw [List.length_map, List.length_map] at shorter
  have fewer : ∀ p : (Zone × Tenant) × MoveState → Bool,
      t.moves.countP (p ∘ moveStamp) ≤ s.moves.countP (p ∘ moveStamp) := fun p => by
    rw [← List.countP_map, ← List.countP_map]
    exact stamps.countP_le
  exact ⟨shorter.trans length, fun u => (fewer fun k => k.1.2 == u).trans (counts u),
    (fewer fun k => k.2 == .ramping).trans slots, h.keys keys, h.weights weights⟩

/-- R45: what keeps a cell from being admitted stays where the queue holds the same cells and no cell becomes pending. -/
theorem nextAdmission_none_congr (keys : t.moves.map moveKey = s.moves.map moveKey)
    (pending : ∀ z u, pendingCell t z u = true → pendingCell s z u = true) (h : nextAdmission s = none) :
    nextAdmission t = none := by
  have length : t.moves.length = s.moves.length := by simpa using congrArg List.length keys
  have count : ∀ u, moveCount t u = moveCount s u := fun u => by
    have e : ∀ x : State, moveCount x u = (x.moves.map moveKey).countP fun k => k.2 == u := fun x => by
      rw [List.countP_map]
      rfl
    rw [e, keys, e]
  rw [nextAdmission_none] at h ⊢
  rw [length]
  refine h.imp id fun h u => ?_
  rw [count]
  exact (h u).imp id fun calm z => Bool.eq_false_iff.mpr fun e => absurd (pending z u e) (by simp [calm z])

/-- R49: what keeps a move from starting reads which moves have started. -/
theorem slotsUsed_congr (stamps : t.moves.map moveStamp = s.moves.map moveStamp) (h : SlotsUsed s) : SlotsUsed t := by
  have states : t.moves.map Move.state = s.moves.map Move.state := by
    have snd := congrArg (List.map Prod.snd) stamps
    rwa [List.map_map, List.map_map] at snd
  refine h.imp (fun full => ?_) fun all m hm => ?_
  · have e : ∀ x : State, rampingCount x = (x.moves.map Move.state).countP fun k => k == .ramping := fun x => by
      rw [List.countP_map]
      rfl
    rwa [e, states, ← e]
  · have mem : m.state ∈ t.moves.map Move.state := List.mem_map_of_mem hm
    rw [states] at mem
    obtain ⟨n, hn, e⟩ := List.mem_map.mp mem
    rw [← e]
    exact all n hn

theorem nothingHeldBack_congr (stamps : t.moves.map moveStamp = s.moves.map moveStamp)
    (pending : ∀ z u, pendingCell t z u = true → pendingCell s z u = true) (h : NothingHeldBack s) : NothingHeldBack t := by
  rw [nothingHeldBack_iff] at h ⊢
  exact ⟨nextAdmission_none_congr (keys_of_stamps stamps) pending h.1, slotsUsed_congr stamps h.2⟩

theorem Calm.keeps (h : Calm s t) : KeepsQueue s t :=
  ⟨h.thins.bounded, fun _ => nothingHeldBack_congr (by rw [h.moves]) h.pending⟩

/-! ### Changes that leave the queue calm -/

/-- The queue stays, and each cell whose target differs from its home is as before. -/
theorem calm_of_cells (moves : t.moves = s.moves)
    (cells : ∀ z u, (t.cell z u).home ≠ (t.cell z u).target → (s.cell z u).home ≠ (s.cell z u).target) : Calm s t := by
  refine ⟨moves, fun z u h => ?_⟩
  rw [pendingCell_iff, moves] at h
  exact pendingCell_iff.mpr ⟨cells z u h.1, h.2⟩

theorem calm_of_eq (moves : t.moves = s.moves) (cells : t.cells = s.cells) : Calm s t :=
  calm_of_cells moves fun z u => by
    rw [State.cell, cells]
    exact id

theorem calm_modCell {z : Zone} {v : Tenant} {f : Cell → Cell}
    (hf : ∀ c, (f c).home = c.home ∧ (f c).target = c.target) : Calm s (s.modCell z v f) := by
  refine calm_of_cells rfl fun y w => ?_
  rw [State.cell_modCell]
  split
  · rw [(hf _).1, (hf _).2]
    exact id
  · exact id

theorem calm_modZoneCells {z : Zone} {f : Tenant → Cell → Cell}
    (hf : ∀ v c, (f v c).home = c.home ∧ (f v c).target = c.target) : Calm s (s.modZoneCells z f) := by
  refine calm_of_cells rfl fun y w => ?_
  rw [State.cell_modZoneCells]
  split
  · rw [(hf _ _).1, (hf _ _).2]
    exact id
  · exact id

theorem calm_of_outsidePasses (h : outsidePasses t = outsidePasses s) : Calm s t := by
  have moves : (outsidePasses t).moves = (outsidePasses s).moves := congrArg State.moves h
  refine calm_of_cells moves fun z u => ?_
  have cell := congrArg (fun x : State => x.cell z u) h
  simp only [outsidePasses_cell, Cell.mk.injEq] at cell
  obtain ⟨home, target, _⟩ := cell
  rw [home, target]
  exact id

theorem calm_appendLog (e : Entry) (s : State) : Calm s (appendLog e s) := by
  rw [appendLog_eq]
  exact calm_of_eq rfl rfl

theorem calm_queueSet (z : Zone) (s : State) : Calm s (queueSet z s) := calm_of_outsidePasses (outsidePasses_queueSet z s)

theorem calm_passResults (z : Zone) (s : State) : Calm s (passResults z s) :=
  calm_of_outsidePasses (outsidePasses_passResults z s)

theorem calm_startQueued (f : FPort) (s : State) : Calm s (startQueued f s) := calm_of_outsidePasses (outsidePasses_startQueued f s)

variable {z : Zone}

theorem Calm.port {p : Port} {f : PortRec → PortRec} (h : Calm b s) : Calm b (s.modPort p f) := h.trans (calm_of_eq rfl rfl)

theorem Calm.result {p : Port} {r : Result} (h : Calm b s) : Calm b (setResult p r s) := h.port

theorem Calm.remote {g : RemoteRec → RemoteRec} (h : Calm b s) : Calm b (s.modRemote z g) := h.trans (calm_of_eq rfl rfl)

theorem Calm.link {f : FPort} {g : LinkRec → LinkRec} (h : Calm b s) : Calm b (s.modLink f g) := h.trans (calm_of_eq rfl rfl)

theorem Calm.tenant {v : Tenant} {f : TenantRec → TenantRec} (h : Calm b s) : Calm b (s.modTenant v f) :=
  h.trans (calm_of_eq rfl rfl)

theorem Calm.zone {f : ZoneRec → ZoneRec} (h : Calm b s) : Calm b (s.modZone z f) := h.trans (calm_of_eq rfl rfl)

theorem Calm.append {e : Entry} (h : Calm b s) : Calm b (appendLog e s) := h.trans (calm_appendLog e s)

theorem Calm.set (h : Calm b s) : Calm b (queueSet z s) := h.trans (calm_queueSet z s)

theorem Calm.pass (h : Calm b s) : Calm b (Machine.pass z s) := h.trans (calm_of_outsidePasses (outsidePasses_pass z s))

theorem Calm.passes {sel : Zone → Bool} (h : Calm b s) : Calm b (Machine.passes sel s) :=
  h.trans (calm_of_outsidePasses (outsidePasses_passes sel s))

theorem Calm.queued {f : FPort} (h : Calm b s) : Calm b (startQueued f s) := h.trans (calm_startQueued f s)

/-! ### Settling (R45 to R49) -/

theorem calm_raiseIdle (b s : State) : Calm s (raiseIdle b s) := by
  rw [raiseIdle_eq]
  exact calm_of_eq rfl rfl

/-- R49: slot granting keeps the cells of the moves. -/
theorem grantSlots_keys (n : Nat) (s : State) : (grantSlots n s).moves.map moveKey = s.moves.map moveKey := by
  have same : ∀ {l k : List Move}, List.Forall₂ Started l k → k.map moveKey = l.map moveKey := fun h => by
    induction h with
    | nil => rfl
    | cons h _ ih =>
      obtain ⟨zone, tenant⟩ := started_key h
      rw [List.map_cons, List.map_cons, ih, moveKey, zone, tenant, moveKey]
  exact same (grantSlots_started n s).2

theorem grantSlots_pending (n : Nat) (s : State) (z : Zone) (v : Tenant) :
    pendingCell (grantSlots n s) z v = true ↔ pendingCell s z v = true := by
  have cell : (grantSlots n s).cell z v = s.cell z v := by rw [(grantSlots_started n s).1]; rfl
  rw [pendingCell_iff, pendingCell_iff, cell, grantSlots_keys]

theorem grantSlots_bounded (h : MoveQueueBounded s) : MoveQueueBounded (grantSlots 8 s) := by
  obtain ⟨length, counts, slots, keys, weights⟩ := h
  have same := grantSlots_keys 8 s
  have shape := (grantSlots_started 8 s).2
  refine ⟨shape.length_eq ▸ length, fun u => ?_, (grantSlots_complete 8 keys slots (Nat.le_add_left _ _)).1,
    same.symm ▸ keys, fun m hm => ?_⟩
  · have e : ∀ x : State, moveCount x u = (x.moves.map moveKey).countP fun k => k.2 == u := fun x => by
      rw [List.countP_map]
      rfl
    rw [e, same, ← e]
    exact counts u
  · obtain ⟨i, hi, rfl⟩ := List.mem_iff_getElem.mp hm
    have hi' : i < s.moves.length := shape.length_eq ▸ hi
    have start := shape.get hi' hi
    simp only [List.get_eq_getElem] at start
    have weight := weights _ (List.getElem_mem hi')
    rcases start with e | ⟨_, e⟩ <;> rw [e] <;> exact weight

/-- R45 to R49: settling keeps the bounds of the queue and leaves nothing that could go on. -/
theorem settle_complete (h : MoveQueueBounded s) : MoveQueueBounded (settle s) ∧ NothingHeldBack (settle s) := by
  have admitted : MoveQueueBounded (admitPending 32 s) := by
    obtain ⟨k, _, e⟩ := admitPending_iterate 32 s
    exact e ▸ bounded_iterate_admitNext k h
  have none : nextAdmission (admitPending 32 s) = none := admitPending_complete 32 (Nat.le_add_left _ _)
  have granted := grantSlots_bounded admitted
  obtain ⟨_, _, slots, keys, _⟩ := admitted
  have used := (grantSlots_complete 8 keys slots (Nat.le_add_left _ _)).2
  have full := nextAdmission_none_congr (grantSlots_keys 8 _) (fun z v => (grantSlots_pending 8 _ z v).mp) none
  have calm : Calm (grantSlots 8 (admitPending 32 s)) (settle s) := (Calm.refl _).passes
  exact ⟨calm.keeps.bounded granted, calm.keeps.held granted (nothingHeldBack_iff.mpr ⟨full, used⟩)⟩

/-- R47: where admission is not called for, no move has left the queue and no cell has become pending. -/
theorem admissionCalled_false (h : admissionCalled b s = false) :
    (∀ m ∈ b.moves, moveKey m ∈ s.moves.map moveKey) ∧ ∀ z v, pendingCell s z v = true → pendingCell b z v = true := by
  rw [admissionCalled, Bool.or_eq_false_iff, List.any_eq_false, List.any_eq_false] at h
  obtain ⟨stayed, calm⟩ := h
  refine ⟨fun m hm => ?_, fun z v hp => ?_⟩
  · by_contra hk
    exact stayed m hm (by rw [moveAt_none.mpr hk]; rfl)
  · have none := calm z (List.mem_finRange z)
    rw [List.any_eq_true, not_exists] at none
    have mem : ∀ w : Tenant, w ∈ allTenants := by decide
    by_contra hb
    exact none v ⟨mem v, by rw [hp, Bool.eq_false_iff.mpr hb]; rfl⟩

/-- R47, R49: the close of an event that has started no move keeps the laws of the queue. -/
theorem Thins.finish (h : Thins b s) : KeepsQueue b (finish b s) := by
  have raised : ∀ x, KeepsQueue x (raiseIdle b x) := fun x => (calm_raiseIdle b x).keeps
  refine KeepsQueue.trans (t := if admissionCalled b s then settle s else s) ?_ (raised _)
  split
  · exact ⟨fun hb => (settle_complete (h.bounded hb)).1, fun hb _ => (settle_complete (h.bounded hb)).2⟩
  · next idle =>
    refine ⟨h.bounded, fun hb held => ?_⟩
    obtain ⟨stayed, pending⟩ := admissionCalled_false (by simpa using idle)
    obtain ⟨_, _, _, keys, _⟩ := hb
    have as_long : (b.moves.map moveKey).length ≤ (s.moves.map moveKey).length :=
      (List.subperm_of_subset keys fun k hk => by
        obtain ⟨m, hm, rfl⟩ := List.mem_map.mp hk
        exact stayed m hm).length_le
    have same := (h.stamps keys).eq_of_length_le (by simpa using as_long)
    exact nothingHeldBack_congr same pending held

end Sys2Proof.Machine

namespace Sys2Proof.Machine

variable {b s t : State} {z : Zone}

/-! ### Moves that leave or change in the queue -/

/-- Moves that leave the queue. -/
theorem thins_filter {keep : Move → Bool} (h : t.moves = s.moves.filter keep) : Thins s t := by
  refine ⟨fun _ => ?_, fun w m hm => w m ?_⟩
  · rw [h]
    exact List.filter_sublist.map _
  · rw [h] at hm
    exact List.mem_of_mem_filter hm

/-- Moves that change in their place. -/
theorem thins_map {f : Move → Move} (h : t.moves = s.moves.map f)
    (stamp : (s.moves.map moveKey).Nodup → ∀ m ∈ s.moves, moveStamp (f m) = moveStamp m)
    (weight : (∀ m ∈ s.moves, m.weight ≤ 32) → ∀ m ∈ s.moves, (f m).weight ≤ 32) : Thins s t := by
  refine ⟨fun keys => ?_, fun w m hm => ?_⟩
  · have same : s.moves.map (moveStamp ∘ f) = s.moves.map moveStamp := List.map_congr_left (stamp keys)
    rw [h, List.map_map, same]
  · rw [h] at hm
    obtain ⟨n, hn, rfl⟩ := List.mem_map.mp hm
    exact weight w n hn

theorem Thins.calm (h : Thins b s) (k : Calm s t) : Thins b t := h.trans k.thins

/-- R15, R57 to R59: a change of target removes its cell's move or changes it in its place. -/
theorem thins_setTarget (z : Zone) (v : Tenant) (d : Dest) (src : Origin) (s : State) : Thins s (setTarget z v d src s) := by
  unfold setTarget
  split
  · exact .refl s
  · split
    · have set : Thins s (s.modCell z v fun c => { c with home := d, target := d, source := src }) :=
        thins_of_moves rfl
      dsimp only
      split
      · exact set
      · exact set.calm (Calm.refl _).pass
    · split
      · exact .refl s
      · split
        · next m hm =>
          obtain ⟨mem, mz, mt⟩ := moveAt_some hm
          unfold retargetMove
          split
          · exact thins_filter rfl
          · next n hn =>
            obtain ⟨nz, nt, _, nstate, nweight, _⟩ := retargeted_some hn
            refine thins_map rfl (fun keys k hk => ?_) fun weights k hk => ?_
            · split
              · next own =>
                simp only [Bool.and_eq_true, beq_iff_eq] at own
                obtain rfl := move_unique keys hk mem (by rw [moveKey, own.1, own.2, moveKey, mz, mt])
                rw [moveStamp, moveKey, nz, nt, nstate, moveStamp, moveKey]
              · rfl
            · split
              · exact nweight ▸ weights m mem
              · exact weights k hk
        · exact thins_of_moves rfl

theorem thins_outage (z : Zone) (s : State) : Thins s (outage z s) := thins_filter (outage_moves z s)

theorem thins_leave (z : Zone) (g : RemoteRec → RemoteRec) (s : State) : Thins s (outage z (s.modRemote z g)) :=
  (Calm.refl s).remote.thins.trans (thins_outage z _)

/-- R52 to R54: the advances keep every weight in its range, and the completed moves leave. -/
theorem thins_rampMoves (s : State) : Thins s (rampMoves s) := by
  refine Thins.trans (t := { s with moves := s.moves.map (advanceMove s.rampStep), rampTimer := ⟨true, s.rampTick⟩ })
    (thins_map rfl (fun _ m _ => ?_) fun weights m hm => ?_) ?_
  · obtain ⟨w, e, _⟩ := advanceMove_eq s.rampStep m
    rw [e]
    rfl
  · unfold advanceMove
    split
    · exact weights m hm
    · exact Nat.min_le_right _ _
    · exact (Nat.sub_le _ _).trans (weights m hm)
  · refine foldl_kept (P := Thins _) (fun x m h => h.trans ?_) _ (.refl _)
    unfold completeMove
    dsimp only
    split <;> exact thins_filter rfl

theorem keepsQueue_rampExpiry (s : State) : KeepsQueue s (rampExpiry s) := by
  unfold rampExpiry
  split
  · exact .refl s
  · exact ((thins_rampMoves s).calm (Calm.refl _).passes).finish

/-! ### The census (chapter 5) -/

theorem thins_propose (v : Tenant) (k : Sector) (z : Zone) (a : Sector) (s : State) : Thins s (propose v k z a s) :=
  have held : ∀ (x : State) (n : Nat), Calm x (x.modCell z v fun c => { c with holdOff := n }) := fun _ _ =>
    calm_modCell fun _ => ⟨rfl, rfl⟩
  (thins_setTarget z v (.sector a) .balancer s).calm (held _ _).tenant

theorem thins_censusTenant (v : Tenant) (s : State) : Thins s (censusTenant v s) := by
  have sector : ∀ (l : List Sector) (x : State × Vector Nat 6), Thins x.1 (l.foldl (balanceSector v) x).1 := by
    intro l
    induction l with
    | nil => exact fun x => .refl x.1
    | cons k rest ih =>
      refine fun x => Thins.trans ?_ (ih _)
      unfold balanceSector
      dsimp only
      split
      · split
        · exact thins_propose v k _ _ x.1
        · exact .refl x.1
      · exact .refl x.1
  unfold censusTenant
  split
  · have measured : Thins s (measureTenant v s) := (Calm.refl s).tenant.thins
    unfold balance
    split
    · exact measured.trans (sector _ (measureTenant v s, _))
    · exact measured
  · exact .refl s

theorem countHoldOffs_cell (s : State) (z : Zone) (v : Tenant) :
    (countHoldOffs s).cell z v = if admitted s v then countDown (s.cell z v) else s.cell z v := by
  simp [countHoldOffs, State.cell]

theorem calm_countHoldOffs (s : State) : Calm s (countHoldOffs s) := by
  refine calm_of_cells rfl fun z v => ?_
  rw [countHoldOffs_cell]
  split <;> exact id

theorem calm_setMode (m : VenueMode) (s : State) : Calm s (setMode m s) :=
  have stored : Calm s { s with venueMode := m, wakeCount := 0 } := calm_of_eq rfl rfl
  stored.passes

theorem calm_wakeStep (s : State) : Calm s (wakeStep s) := by
  unfold wakeStep
  split
  · split
    · exact calm_setMode _ s
    · exact calm_of_eq rfl rfl
  · exact .refl s

theorem keepsQueue_censusExpiry (s : State) : KeepsQueue s (censusExpiry s) := by
  unfold censusExpiry
  split
  · exact .refl s
  · have begun : Thins s { s with censusTimer := ⟨true, s.censusInterval⟩ } := thins_of_moves rfl
    have measured := foldl_kept (P := Thins s) (fun x v h => h.trans (thins_censusTenant v x)) allTenants begun
    have woken := (measured.calm (calm_countHoldOffs _)).calm (calm_wakeStep _)
    exact (foldl_kept (P := Thins s) (fun x e h => h.calm (calm_appendLog e x)) _ woken).finish

/-! ### Supervision (chapter 7) -/

theorem thins_enterIsolated (z : Zone) (cause : IsolationCause) (s : State) : Thins s (enterIsolated z cause s) := by
  have finished : ∀ x, Calm x (queueSet z (passResults z x)) := fun x => (calm_passResults z x).set
  unfold enterIsolated
  dsimp only
  split
  · exact (thins_leave z _ s).calm (finished _)
  · exact (Calm.refl s).remote.thins.calm (finished _)

theorem thins_enterLost (z : Zone) (s : State) : Thins s (enterLost z s) := (thins_leave z _ s).calm (Calm.refl _).pass

theorem thins_handleMiss (z : Zone) (s : State) : Thins s (handleMiss z s) := by
  have counted : Calm s (s.modRemote z fun r => { r with goodCount := 0, missCount := min (r.missCount + 1) 15 }) :=
    (Calm.refl s).remote
  have lost := counted.thins.trans (thins_enterLost z _)
  unfold handleMiss
  dsimp only
  split
  · exact counted.thins
  · split
    · exact counted.remote.append.thins
    · exact counted.thins
  · split
    · exact lost
    · exact counted.thins
  · split
    · exact lost
    · exact counted.thins
  · exact counted.thins
  · exact counted.remote.thins

theorem thins_replyOverdrive (z : Zone) (st : Status) (s : State) : Thins s (replyOverdrive z st s) := by
  unfold replyOverdrive
  dsimp only
  split
  · split
    · exact ((Calm.refl s).remote.thins.trans (thins_enterIsolated z _ _)).calm (calm_appendLog _ _)
    · exact (Calm.refl s).remote.thins
  · exact .refl s

theorem calm_replyAlarm (z : Zone) (st : Status) (c : AlarmClass) (s : State) : Calm s (replyAlarm z st c s) := by
  have changed : ∀ f, Calm s (modAlarm z c f s) := fun _ => (Calm.refl s).remote
  unfold replyAlarm
  dsimp only
  split
  · split
    · exact changed _
    · split
      · exact (changed _).pass.append
      · exact changed _
  · split
    · exact changed _
    · split
      · exact (changed _).pass.append
      · exact changed _

theorem thins_replyEscalation (z : Zone) (s : State) : Thins s (replyEscalation z s) := by
  have raised : Calm s (s.modRemote z fun r => { r with alarms := tmapIdx (fun _ a => raiseEscalation a) r.alarms }) :=
    (Calm.refl s).remote
  unfold replyEscalation
  dsimp only
  split
  · exact .refl s
  · split
    · exact (raised.thins.trans (thins_enterIsolated z _ _)).calm (calm_appendLog _ _)
    · exact raised.thins

theorem calm_enterService (z : Zone) (s : State) : Calm s (enterService z s) := by
  have entered : ∀ g, Calm s (queueSet z (passResults z (s.modRemote z g))) := fun _ =>
    ((Calm.refl s).remote.trans (calm_passResults z _)).set
  unfold enterService
  dsimp only
  split
  · exact (entered _).append
  · exact entered _

theorem calm_replyService (z : Zone) (s : State) : Calm s (replyService z s) := by
  unfold replyService
  split
  · split
    · exact calm_enterService z s
    · exact .refl s
  · split
    · exact calm_enterService z s
    · exact .refl s
  · split
    · exact (Calm.refl s).remote.pass
    · exact .refl s
  · split
    · exact .refl s
    · exact (Calm.refl s).remote.pass
  · exact .refl s
  · exact .refl s

theorem calm_replyOccupancy (z : Zone) (st : Status) (s : State) : Calm s (replyOccupancy z st s) := by
  unfold replyOccupancy
  split
  · exact calm_modZoneCells fun _ _ => ⟨rfl, rfl⟩
  · exact .refl s

theorem calm_replyEcho (z : Zone) (st : Status) (s : State) : Calm s (replyEcho z st s) := by
  unfold replyEcho
  split
  · split
    · exact calm_queueSet z s
    · exact .refl s
  · exact .refl s

/-- R138: of the seven steps of a reply, the two that may isolate the remote can remove moves. -/
theorem thins_handleReply (z : Zone) (st : Status) (s : State) : Thins s (handleReply z st s) := by
  have counted : Thins s (replyCounts z st s) := (Calm.refl s).remote.thins
  have checked := counted.trans (thins_replyOverdrive z st _)
  have alarmed : Thins s (replyAlarms z st _) :=
    foldl_kept (P := Thins s) (fun x c h => h.calm (calm_replyAlarm z st c x)) allAlarms checked
  have escalated := alarmed.trans (thins_replyEscalation z _)
  exact ((escalated.calm (calm_replyService z _)).calm (calm_replyOccupancy z st _)).calm (calm_replyEcho z st _)

theorem Calm.lostEntries {f : FPort} {ps : List Pos} (h : Calm b s) : Calm b (logLost f ps s) := by
  refine foldl_kept (P := Calm b) (fun a p ha => ?_) ps h
  split
  · exact ha.append
  · exact ha

theorem Calm.marked {f : FPort} {ps : List Pos} (h : Calm b s) : Calm b (markBehind f ps s) := by
  refine foldl_kept (P := Calm b) (fun a p ha => ?_) ps h
  split
  · exact ha.remote
  · exact ha

theorem calm_groupEntries (f : FPort) (results : List (Pos × Bool)) (s : State) : Calm s (groupEntries f results s) := by
  unfold groupEntries
  dsimp only
  split
  · exact .refl s
  · split
    · exact calm_appendLog _ s
    · split
      · split
        · exact (calm_appendLog _ s).marked
        · exact (Calm.refl s).lostEntries
      · exact (Calm.refl s).lostEntries

theorem calm_roundEnd (f : FPort) (results : List (Pos × Bool)) (s : State) : Calm s (roundEnd f results s) := by
  refine foldl_kept (P := Calm s) (fun a p ha => ?_) _ (calm_groupEntries f results s).lostEntries
  split
  · exact ha.remote
  · exact ha

/-! ### The Link Controllers (chapter 6) -/

theorem calm_endRound (f : FPort) (results : List (Pos × Bool)) (s : State) : Calm s (endRound f results s) :=
  (calm_roundEnd f results s).link.queued

theorem calm_beginTurn (f : FPort) (pos : Pos) (results : List (Pos × Bool)) (s : State) :
    Calm s (beginTurn f pos results s) := by
  unfold beginTurn
  split
  · exact (Calm.refl s).link
  · exact calm_endRound f results s

theorem calm_afterClose (f : FPort) (pos : Pos) (results : List (Pos × Bool)) (s : State) :
    Calm s (afterClose f pos results s) := by
  unfold afterClose
  split
  · exact (Calm.refl s).link
  · exact calm_endRound f results s

theorem thins_deliver (f : FPort) (pos : Pos) (reply : Option Status) (s : State) : Thins s (deliver f pos reply s) := by
  unfold deliver
  split
  · exact .refl s
  · split
    · exact thins_handleReply _ _ s
    · exact thins_handleMiss _ s

theorem keepsQueue_closeWindow (f : FPort) (reply : Option Status) (s : State) : KeepsQueue s (closeWindow f reply s) := by
  unfold closeWindow
  split
  · exact ((thins_deliver f _ reply s).calm (calm_afterClose f _ _ _)).finish
  · exact .refl s

theorem calm_pollExpiry (s : State) : Calm s (pollExpiry s) := by
  unfold pollExpiry
  split
  · exact .refl s
  · refine foldl_kept (P := Calm s) (fun a f ha => ?_) allFPorts
      (calm_of_eq (t := { s with pollTimer := ⟨true, s.pollInterval⟩ }) rfl rfl)
    unfold startRound
    split
    · exact ha
    · split
      · exact ha
      · exact ha.link

theorem calm_pollEnd (f : FPort) (s : State) : Calm s (pollEnd f s) := by
  unfold pollEnd
  split
  · split
    · exact .refl s
    · exact (Calm.refl s).link
  · exact .refl s

theorem keepsQueue_replyExpiry (f : FPort) (s : State) : KeepsQueue s (replyExpiry f s) := by
  unfold replyExpiry
  split
  · exact .refl s
  · exact keepsQueue_closeWindow f none s

theorem calm_reportFrame (f : FPort) (fr : Frame) (s : State) : Calm s (reportFrame f fr s) := by
  cases fr with
  | set pos limit mute =>
    simp only [reportFrame, reportSet]
    split
    · exact (Calm.refl s).remote
    · exact .refl s
  | chainMute => exact .refl s

theorem calm_takeOwed (f : FPort) (s : State) : Calm s (takeOwed f s) := by
  unfold takeOwed
  split
  · exact calm_queueSet _ s
  · exact .refl s

theorem calm_sendNext (f : FPort) (s : State) : Calm s (sendNext f s) := by
  unfold sendNext
  split
  · split
    · exact (Calm.refl s).link
    · exact calm_beginTurn f _ _ s
  · exact calm_startQueued f s

theorem calm_frameEnd (f : FPort) (s : State) : Calm s (frameEnd f s) := by
  unfold frameEnd
  split
  · next fr rest _ _ =>
    split
    · exact .refl s
    · exact (((Calm.refl s).link.trans (calm_reportFrame f fr _)).trans (calm_takeOwed f _)).trans (calm_sendNext f _)
  · exact .refl s

theorem calm_lockLost (f : FPort) (s : State) : Calm s (lockLost f s) := by
  unfold lockLost
  dsimp only
  split
  · exact (Calm.refl s).link
  · have dropped : Calm s ((s.modLink f fun l => { l with lockCond := false }).modLink f fun l =>
        { l with locked := false, rx := .seeking, afterC3 := false, sending := .nothing }) := (Calm.refl s).link.link
    unfold roundAtLoss
    split
    · exact dropped.trans (calm_beginTurn f _ _ _)
    · exact dropped.link
    · exact dropped

theorem calm_lockBack (f : FPort) (s : State) : Calm s (lockBack f s) := by
  unfold lockBack
  dsimp only
  split
  · exact (Calm.refl s).link
  · exact (Calm.refl s).link.link.queued

theorem keepsQueue_takeDataOctet (f : FPort) (o : Byte) (s : State) : KeepsQueue s (takeDataOctet f o s) := by
  have seeking : KeepsQueue s (s.modLink f fun l => { l with rx := .seeking }) := (Calm.refl s).link.keeps
  unfold takeDataOctet
  split
  · exact .refl s
  · split
    · exact seeking
    · exact (Calm.refl s).link.keeps
  · dsimp only
    split
    · unfold frameDone
      dsimp only
      split
      · exact seeking.trans (keepsQueue_closeWindow f _ _)
      · exact seeking
    · exact (Calm.refl s).link.keeps

theorem keepsQueue_takeChars (f : FPort) (cs : List LineChar) (s : State) : KeepsQueue s (takeChars f cs s) := by
  refine foldl_kept (P := KeepsQueue s) (fun x c hx => hx.trans ?_) cs (.refl s)
  unfold takeChar
  split
  · exact .refl x
  · cases c with
    | framing o =>
      dsimp only
      split
      · exact (Calm.refl x).link.keeps
      · exact (Calm.refl x).link.keeps
    | data o => exact (Calm.refl x).link.keeps.trans (keepsQueue_takeDataOctet f o _)

end Sys2Proof.Machine

namespace Sys2Proof.Machine

variable {s : State}

/-! ### The commands of a tenant -/

theorem keepsQueue_setResult (p : Port) (r : Result) (s : State) : KeepsQueue s (setResult p r s) := (Calm.refl s).result.keeps

theorem calm_setCmd (p : Port) (c : Progress) (s : State) : Calm s (setCmd p c s) := (Calm.refl s).port

theorem keepsQueue_setWindow (p : Port) (first last : Byte) (s : State) : KeepsQueue s (setWindow p first last s) := by
  unfold setWindow
  split
  · split
    · exact keepsQueue_setResult _ _ s
    · exact (Calm.refl s).port.result.keeps
  · exact keepsQueue_setResult _ _ s

/-- R47: a change of target closes its event. -/
theorem keepsQueue_target (z : Zone) (v : Tenant) (d : Dest) (src : Origin) (s : State) :
    KeepsQueue s (finish s (setTarget z v d src s)) := (thins_setTarget z v d src s).finish

theorem keepsQueue_targetResult (z : Zone) (v : Tenant) (d : Dest) (src : Origin) (p : Port) (r : Result) (s : State) :
    KeepsQueue s (finish s (setResult p r (setTarget z v d src s))) :=
  ((thins_setTarget z v d src s).calm (Calm.refl _).result).finish

theorem keepsQueue_targetElement (v : Tenant) (o : Byte) (s : State) : KeepsQueue s (targetElement v o s) := by
  refine KeepsQueue.trans ?_ (Calm.refl _).port.keeps
  split
  · exact keepsQueue_setResult _ _ s
  · split
    · exact keepsQueue_setResult _ _ s
    · exact keepsQueue_target _ v _ _ s

theorem keepsQueue_requestMove (v : Tenant) (zone dest : Byte) (s : State) : KeepsQueue s (requestMove v zone dest s) := by
  unfold requestMove
  split
  · split
    · exact keepsQueue_setResult _ _ s
    · exact keepsQueue_targetResult _ v _ _ _ _ s
  · exact keepsQueue_setResult _ _ s

theorem keepsQueue_cancelMove (v : Tenant) (zone : Byte) (s : State) : KeepsQueue s (cancelMove v zone s) := by
  unfold cancelMove
  split
  · exact keepsQueue_setResult _ _ s
  · split
    · exact keepsQueue_setResult _ _ s
    · exact keepsQueue_targetResult _ v _ _ _ _ s

theorem calm_alternatesElement (v : Tenant) (element : List Byte) (s : State) : Calm s (alternatesElement v element s) := by
  refine Calm.port (f := fun q => { q with pointer := nextPointer q }) ?_
  split
  · exact (Calm.refl s).result
  · exact calm_modCell fun _ => ⟨rfl, rfl⟩

theorem calm_setLevel (v : Tenant) (sec hi lo : Byte) (s : State) : Calm s (setLevel v sec hi lo s) := by
  unfold setLevel
  split
  · exact (Calm.refl s).result
  · refine Calm.result ?_
    unfold storeLevel
    dsimp only
    split
    · exact (Calm.refl s).tenant
    · exact (Calm.refl s).tenant.passes

theorem calm_storeScene (v : Tenant) (slot : Byte) (s : State) : Calm s (storeScene v slot s) := by
  unfold storeScene
  split
  · exact (Calm.refl s).result
  · exact (Calm.refl s).tenant.result

theorem calm_clearScene (v : Tenant) (slot : Byte) (s : State) : Calm s (clearScene v slot s) := by
  unfold clearScene
  split
  · exact (Calm.refl s).result
  · exact (Calm.refl s).tenant.result

theorem calm_sceneElement (v : Tenant) (slot : Slot) (o : Byte) (s : State) : Calm s (sceneElement v slot o s) := by
  refine Calm.port (f := fun q => { q with pointer := nextPointer q }) ?_
  split
  · exact (Calm.refl s).result
  · exact (Calm.refl s).tenant

theorem thins_recallEntry (v : Tenant) (scene : Vector SceneEntry 48) (s : State) (z : Zone) :
    Thins s (recallEntry v scene s z) := by
  unfold recallEntry
  split
  · exact .refl s
  · split
    · exact (Calm.refl s).result.thins
    · split
      · exact .refl s
      · exact (thins_setTarget z v _ _ s).calm (calm_modCell fun _ => ⟨rfl, rfl⟩)

theorem keepsQueue_recallScene (v : Tenant) (slot : Byte) (s : State) : KeepsQueue s (recallScene v slot s) := by
  unfold recallScene
  split
  · exact keepsQueue_setResult _ _ s
  · split
    · exact keepsQueue_setResult _ _ s
    · exact (foldl_kept (P := Thins s) (fun x z h => h.trans (thins_recallEntry v _ x z)) allZones
        (Calm.refl s).result.thins).finish

theorem calm_setSpreading (v : Tenant) (a b c d e f g i : Byte) (s : State) : Calm s (setSpreading v a b c d e f g i s) := by
  unfold setSpreading
  dsimp only
  split
  · exact (Calm.refl s).result
  · exact (Calm.refl s).tenant.result

theorem keepsQueue_completeTenant (v : Tenant) (c : Command) (os : List Byte) (s : State) :
    KeepsQueue s (completeTenant v c os s) := by
  have same := KeepsQueue.refl s
  unfold completeTenant
  split
  · exact with2_kept (fun _ _ => keepsQueue_setWindow _ _ _ s) os same
  · exact with2_kept (fun _ _ => keepsQueue_requestMove v _ _ s) os same
  · exact with1_kept (fun _ => keepsQueue_cancelMove v _ s) os same
  · exact with3_kept (fun _ _ _ => (calm_setLevel v _ _ _ s).keeps) os same
  · exact with1_kept (fun _ => (calm_storeScene v _ s).keeps) os same
  · exact with1_kept (fun _ => keepsQueue_recallScene v _ s) os same
  · exact with1_kept (fun _ => (calm_clearScene v _ s).keeps) os same
  · unfold with8
    split
    · exact (calm_setSpreading v _ _ _ _ _ _ _ _ s).keeps
    · exact same
  · exact same

/-! ### The commands of the venue -/

/-- R2: a cell set DARK/DARK is not pending. -/
theorem calm_admitRecord (v : Tenant) (quota count : Nat) (s : State) : Calm s (admitRecord v quota count s) := by
  rw [admitRecord_eq]
  refine calm_of_cells rfl fun z u => ?_
  have cell := State.cell_modColumn s v z u darkCell
  rw [State.cell] at cell ⊢
  rw [cell]
  split
  · exact fun ne => absurd rfl ne
  · exact id

theorem calm_admitTenant (v quota count : Byte) (s : State) : Calm s (admitTenant v quota count s) := by
  unfold admitTenant
  split
  · exact (Calm.refl s).result
  · split
    · exact (Calm.refl s).result
    · split
      · exact (Calm.refl s).result
      · split
        · exact (Calm.refl s).result
        · exact (calm_admitRecord _ _ _ s).passes.result

theorem calm_setQuota (v share : Byte) (s : State) : Calm s (setQuota v share s) := by
  unfold setQuota
  split
  · exact (Calm.refl s).result
  · split
    · exact (Calm.refl s).result
    · split
      · exact (Calm.refl s).result
      · refine Calm.result ?_
        split
        · exact (Calm.refl s).tenant
        · exact (Calm.refl s).tenant.passes

theorem calm_endFromOutside (p : Port) (s : State) : Calm s (endFromOutside p s) := by
  rw [endFromOutside_eq]
  exact calm_of_eq rfl rfl

theorem keepsQueue_suspendTenant (v : Byte) (s : State) : KeepsQueue s (suspendTenant v s) := by
  unfold suspendTenant
  split
  · exact keepsQueue_setResult _ _ s
  · next u _ =>
    split
    · exact keepsQueue_setResult _ _ s
    · have dropped : Thins s (suspendRecord u s) := thins_filter rfl
      exact (dropped.calm ((Calm.refl _).passes.trans (calm_endFromOutside _ _)).result).finish

theorem calm_resumeTenant (v : Byte) (s : State) : Calm s (resumeTenant v s) := by
  unfold resumeTenant
  split
  · exact (Calm.refl s).result
  · split
    · exact (Calm.refl s).result
    · exact (Calm.refl s).tenant.passes.result

theorem keepsQueue_retireTenant (v : Byte) (s : State) : KeepsQueue s (retireTenant v s) := by
  unfold retireTenant
  split
  · exact keepsQueue_setResult _ _ s
  · next u _ =>
    split
    · exact keepsQueue_setResult _ _ s
    · have dropped : Thins s (retireRecord u s) := thins_filter rfl
      exact (dropped.calm ((Calm.refl _).passes.trans (calm_endFromOutside _ _)).port.result).finish

theorem calm_storeLive (z : Zone) (n : Nat) (s : State) : Calm s (storeLive z n s) := by
  unfold storeLive
  dsimp only
  split
  · exact (Calm.refl s).zone
  · exact (Calm.refl s).zone.pass

theorem calm_setLimit (zone hi lo : Byte) (s : State) : Calm s (setLimit zone hi lo s) := by
  unfold setLimit
  split
  · exact (Calm.refl s).result
  · exact (calm_storeLive _ _ s).result

theorem calm_limitElement (hi lo : Byte) (s : State) : Calm s (limitElement hi lo s) := by
  refine Calm.port (f := fun q => { q with pointer := nextPointer q }) ?_
  unfold markResult
  split
  · exact (calm_storeLive _ _ s).result
  · exact calm_storeLive _ _ s

theorem keepsQueue_pinZone (zone : Byte) (s : State) : KeepsQueue s (pinZone zone s) := by
  unfold pinZone
  split
  · exact keepsQueue_setResult _ _ s
  · next z _ =>
    split
    · exact keepsQueue_setResult _ _ s
    · have dropped : Thins s (pinRecord z s) := thins_filter rfl
      exact (dropped.calm (Calm.refl _).result).finish

theorem calm_unpinZone (zone : Byte) (s : State) : Calm s (unpinZone zone s) := by
  unfold unpinZone
  split
  · exact (Calm.refl s).result
  · exact (Calm.refl s).zone.result

theorem calm_setVenueMode (mode : Byte) (s : State) : Calm s (setVenueMode mode s) := by
  unfold setVenueMode
  split
  · exact (Calm.refl s).result
  · exact (calm_setMode _ s).result

theorem calm_setStandbyClasses (flags : Byte) (s : State) : Calm s (setStandbyClasses flags s) := by
  have stored : Calm s { s with standbyDark := standbyFlags flags } := calm_of_eq rfl rfl
  exact stored.passes.result

theorem calm_setDerate (cls derate : Byte) (s : State) : Calm s (setDerate cls derate s) := by
  unfold setDerate
  split
  · exact (Calm.refl s).result
  · next c _ =>
    have stored : Calm s { s with derate := tset s.derate (alarmIdx c) (min derate.toNat 32) } := calm_of_eq rfl rfl
    refine Calm.result ?_
    unfold storeDerate
    dsimp only
    split
    · exact stored
    · exact stored.passes

theorem calm_setEscalation (cls setting : Byte) (s : State) : Calm s (setEscalation cls setting s) := by
  unfold setEscalation
  split
  · exact (Calm.refl s).result
  · exact calm_of_eq rfl rfl

theorem keepsQueue_isolateRemote (zone : Byte) (s : State) : KeepsQueue s (isolateRemote zone s) := by
  unfold isolateRemote
  split
  · exact keepsQueue_setResult _ _ s
  · split
    · exact keepsQueue_setResult _ _ s
    · exact keepsQueue_setResult _ _ s
    · exact ((thins_enterIsolated _ _ s).calm (Calm.refl _).result).finish

theorem calm_restoreRemote (zone : Byte) (s : State) : Calm s (restoreRemote zone s) := by
  unfold restoreRemote
  split
  · exact (Calm.refl s).result
  · split
    · exact (Calm.refl s).remote.pass.result
    · exact (Calm.refl s).result

theorem calm_writeStorePage (page : Byte) (records : Vector Byte 32) (s : State) : Calm s (writeStorePage page records s) := by
  unfold writeStorePage
  split
  · exact (Calm.refl s).result
  · split
    · exact (Calm.refl s).result
    · split
      · exact (Calm.refl s).result
      · split
        · exact (Calm.refl s).result
        · exact calm_of_eq rfl rfl

theorem calm_lockStorePage (page : Byte) (s : State) : Calm s (lockStorePage page s) := by
  unfold lockStorePage
  split
  · exact (Calm.refl s).result
  · split
    · exact (Calm.refl s).result
    · split
      · exact (Calm.refl s).result
      · split
        · exact (Calm.refl s).result
        · exact calm_of_eq rfl rfl

theorem calm_readStorePage (page : Byte) (s : State) : Calm s (readStorePage page s) := by
  unfold readStorePage
  split
  · exact (Calm.refl s).result
  · split
    · exact (Calm.refl s).result
    · exact (Calm.refl s).result.port

theorem keepsQueue_completeVenue (c : Command) (os : List Byte) (s : State) : KeepsQueue s (completeVenue c os s) := by
  have same := KeepsQueue.refl s
  have stored : ∀ t : State, t.moves = s.moves → t.cells = s.cells → KeepsQueue s t := fun _ moves cells =>
    (calm_of_eq moves cells).keeps
  unfold completeVenue
  split
  · exact with2_kept (fun _ _ => keepsQueue_setWindow _ _ _ s) os same
  · exact with3_kept (fun _ _ _ => (calm_admitTenant _ _ _ s).keeps) os same
  · exact with1_kept (fun _ => keepsQueue_suspendTenant _ s) os same
  · exact with1_kept (fun _ => (calm_resumeTenant _ s).keeps) os same
  · exact with1_kept (fun _ => keepsQueue_retireTenant _ s) os same
  · exact with2_kept (fun _ _ => (calm_setQuota _ _ s).keeps) os same
  · exact with3_kept (fun _ _ _ => (calm_setLimit _ _ _ s).keeps) os same
  · exact with1_kept (fun _ => keepsQueue_pinZone _ s) os same
  · exact with1_kept (fun _ => (calm_unpinZone _ s).keeps) os same
  · exact with1_kept (fun _ => (calm_setVenueMode _ s).keeps) os same
  · exact with1_kept (fun _ => (calm_setStandbyClasses _ s).keeps) os same
  · exact with3_kept (fun _ _ _ => stored _ rfl rfl) os same
  · exact with2_kept (fun _ _ => (calm_setDerate _ _ s).keeps) os same
  · exact with2_kept (fun _ _ => (calm_setEscalation _ _ s).keeps) os same
  · unfold with4
    split
    · exact stored _ rfl rfl
    · exact same
  · exact with2_kept (fun _ _ => stored _ rfl rfl) os same
  · exact with1_kept (fun _ => stored _ rfl rfl) os same
  · exact with1_kept (fun _ => keepsQueue_isolateRemote _ s) os same
  · exact with1_kept (fun _ => (calm_restoreRemote _ s).keeps) os same
  · unfold withPage
    split
    · exact (calm_writeStorePage _ _ s).keeps
    · exact same
  · exact with1_kept (fun _ => (calm_lockStorePage _ s).keeps) os same
  · exact with1_kept (fun _ => (calm_readStorePage _ s).keeps) os same
  · exact same

/-! ### Octets on a port (chapter 10) -/

theorem keepsQueue_complete (p : Port) (c : Command) (os : List Byte) (s : State) : KeepsQueue s (complete p c os s) := by
  have idle := (calm_setCmd p .idle s).keeps
  cases p with
  | tenant v => exact idle.trans (keepsQueue_completeTenant v c os _)
  | venue => exact idle.trans (keepsQueue_completeVenue c os _)

theorem keepsQueue_applyElement (p : Port) (w : WriteTo) (os : List Byte) (s : State) :
    KeepsQueue s (applyElement p w os s) := by
  have same := KeepsQueue.refl s
  unfold applyElement
  split
  · exact with1_kept (fun _ => keepsQueue_targetElement _ _ s) os same
  · exact (calm_alternatesElement _ os s).keeps
  · exact with1_kept (fun _ => (calm_sceneElement _ _ _ s).keeps) os same
  · exact with2_kept (fun _ _ => (calm_limitElement _ _ s).keeps) os same
  · next i =>
    have weighed : ∀ o x, KeepsQueue x (weightElement i o x) := fun _ _ => Calm.keeps (calm_of_eq rfl rfl)
    have next := (calm_setCmd .venue (.streaming (.weights (i + 1)) []) s).keeps
    unfold with1
    split
    · exact next.trans (weighed _ _)
    · exact next
  · exact same

theorem calm_takeLeading (p : Port) (c : Command) (o : Byte) (s : State) : Calm s (takeLeading p c o s) := by
  have refused : Calm s (setResult p .range (setCmd p .idle s)) := (calm_setCmd p .idle s).result
  unfold takeLeading
  dsimp only
  split
  · split
    · exact calm_setCmd p _ s
    · exact refused
  · split
    · exact calm_setCmd p _ s
    · exact refused
  · split
    · exact calm_setCmd p _ s
    · exact refused
  · exact .refl s

theorem calm_countOctet (p : Port) (r : ReadFrom) (held : Option (List Byte)) (pos : Nat) (s : State) :
    Calm s (countOctet p r held pos s) := by
  unfold countOctet
  split
  · exact calm_setCmd p _ s
  · split
    · exact calm_setCmd p _ s
    · dsimp only
      split
      · exact (calm_setCmd p _ s).port
      · exact calm_setCmd p _ s

theorem keepsQueue_takeParam (p : Port) (o : Byte) (s : State) : KeepsQueue s (takeParam p o s) := by
  unfold takeParam
  split
  · exact .refl s
  · dsimp only
    split
    · exact keepsQueue_complete p _ _ s
    · exact (calm_setCmd p _ s).keeps
  · exact (calm_takeLeading p _ o s).keeps
  · dsimp only
    split
    · exact (calm_setCmd p _ s).keeps.trans (keepsQueue_applyElement p _ _ _)
    · exact (calm_setCmd p _ s).keeps
  · exact (calm_countOctet p _ _ _ s).keeps

theorem calm_readLog (p : Port) (r : Reader) (s : State) : Calm s (readLog p r s).2 := by
  obtain ⟨n, e, _⟩ := readLog_eq p r s
  rw [e, setReader_eq]
  exact calm_of_eq rfl rfl

theorem calm_acceptCode (p : Port) (c : Command) (s : State) : Calm s (acceptCode p c s) := by
  cases c with
  | readFault =>
    have coded : Calm s (setCodeResult p (commandCode .readFault) .ok s) := (Calm.refl s).port
    unfold acceptCode takeFault
    dsimp only
    split
    · exact coded
    · exact (coded.trans (calm_readLog p _ _)).port
  | readPlan => cases p <;> exact calm_of_eq rfl rfl
  | readGrants => cases p <;> exact calm_of_eq rfl rfl
  | readLoads => cases p <;> exact calm_of_eq rfl rfl
  | _ => exact calm_of_eq rfl rfl

/-- R164: a command code changes its port, the readers of the log, and at SOFT RESET the timers. -/
theorem calm_takeCode (p : Port) (o : Byte) (s : State) : Calm s (takeCode p o s) := by
  have idle := calm_setCmd p .idle s
  unfold takeCode
  dsimp only
  split
  · exact idle.port
  · split
    · exact idle.port
    · exact idle.trans (calm_acceptCode p _ _)

theorem calm_beginOctet (p : Port) (s : State) : Calm s (beginOctet p s) := by
  obtain ⟨c, e⟩ := beginOctet_eq p s
  exact e ▸ calm_setCmd p c s

theorem keepsQueue_takeOctet (p : Port) (o : Bool × Byte) (s : State) : KeepsQueue s (takeOctet p s o) := by
  have presented : ∀ out, KeepsQueue s (present p out (beginOctet p s)) := fun _ => (calm_beginOctet p s).port.keeps
  unfold takeOctet
  split
  · exact (Calm.refl s).port.keeps
  · dsimp only
    split
    · exact (presented _).trans (keepsQueue_takeParam p _ _)
    · exact (presented _).trans (calm_takeCode p _ _).keeps

theorem keepsQueue_clockBits (p : Port) (bits : List LineBit) (s : State) : KeepsQueue s (clockBits p bits s) := by
  unfold clockBits
  split
  · exact (Calm.refl s).port.keeps
  · split
    · exact (Calm.refl s).port.keeps
    · have taken := foldl_kept (P := KeepsQueue s) (fun x o h => h.trans (keepsQueue_takeOctet p o x))
        (cutOctets (s.port p).assembly bits).1 (s := s.modPort p fun q => { q with assembly := [], dataOut := [] })
        (Calm.refl s).port.keeps
      unfold takeBits beginNext
      dsimp only
      split
      · exact taken
      · exact (taken.trans (Calm.refl _).port.keeps).trans (calm_beginOctet p _).keeps

/-! ### The carrier events, the store, resets and start-up -/

theorem calm_carrierEvent (v : Tenant) (k : Sector) (lock : Bool) (s : State) : Calm s (carrierEvent v k lock s) := by
  have noted : Calm s { s with carrierLock := tmod s.carrierLock v fun row => tset row k lock } := calm_of_eq rfl rfl
  unfold carrierEvent
  dsimp only
  split
  · exact noted.tenant.append.passes
  · exact noted

theorem thins_rebind (z : Zone) (s : State) : Thins s (rebind z s) := by
  unfold rebind
  dsimp only
  split
  · exact thins_leave z _ s
  · exact (Calm.refl s).remote.thins

/-- R154: a page write removes the moves of the zones that leave service. -/
theorem thins_liveWrite (p : PageNo) (rs : List StoreRecord) (s : State) : Thins s (liveWrite p rs s) := by
  have copied : Thins s (copyRecords p rs s) := by
    rw [copyRecords_eq]
    exact thins_of_moves rfl
  have rebound : Thins s (rebindPage s p (copyRecords p rs s)) := by
    refine foldl_kept (P := Thins s) (fun x z h => ?_) (zonesOfPage p) copied
    split
    · exact h
    · exact h.trans (thins_rebind z x)
  exact rebound.calm (Calm.refl _).passes

theorem keepsQueue_writeCompletion (s : State) : KeepsQueue s (writeCompletion s) := by
  unfold writeCompletion
  split
  · next p records _ =>
    have stored : Calm s { s with pages := tset s.pages p (sealPage (writtenOctets records)), storeOp := none } :=
      calm_of_eq rfl rfl
    dsimp only
    split
    · exact stored.port.keeps
    · exact ((stored.thins.trans (thins_liveWrite p _ _)).calm (Calm.refl _).port).finish
  · exact .refl s

theorem calm_lockCompletion (s : State) : Calm s (lockCompletion s) := by
  unfold lockCompletion
  split
  · exact calm_of_eq rfl rfl
  · exact .refl s

theorem calm_hardwareReset (s : State) : Calm s (hardwareReset s) := by
  unfold hardwareReset
  dsimp only
  rw [evalLogAll_eq, interruptStore_eq]
  exact calm_of_eq rfl rfl

/-- R161: start-up leaves an empty queue and every cell DARK. -/
theorem keepsQueue_startUp (s : State) : KeepsQueue s (startUp s) := by
  have reset : ∀ t, Calm State.reset t → KeepsQueue s t := fun t h =>
    ⟨fun _ => h.keeps.bounded moveQueueBounded_reset, fun _ _ => h.keeps.held moveQueueBounded_reset nothingHeldBack_reset⟩
  have started : Calm State.reset (startedPart s) := calm_of_eq rfl rfl
  unfold startUp
  split
  · exact .refl s
  · have entered := foldl_kept (P := Calm State.reset) (f := fun s p => appendLog (Entry.pageInvalid s.seconds p) s)
      (fun _ _ h => h.append) (invalidPages (loadPages s.pages allPages [])) started
    exact reset _ entered.port

/-! ### Every step -/

theorem keepsQueue_event {t : State} (e : Event s t) : KeepsQueue s t := by
  cases e with
  | burst c p o => cases o <;> exact keepsQueue_clockBits p _ s
  | element p c => exact keepsQueue_clockBits p _ s
  | code p o c => exact keepsQueue_clockBits p _ s
  | hardwareReset => exact (calm_hardwareReset s).keeps
  | startUp => exact keepsQueue_startUp s
  | selectRise p => exact (Calm.refl s).port.keeps
  | selectFall p => exact (Calm.refl s).port.keeps
  | rampTimer => exact keepsQueue_rampExpiry s
  | censusTimer => exact keepsQueue_censusExpiry s
  | pollTimer => exact (calm_pollExpiry s).keeps
  | pollSent f => exact (calm_pollEnd f s).keeps
  | chars f cs => exact keepsQueue_takeChars f cs s
  | replyTimer f => exact keepsQueue_replyExpiry f s
  | frameSent f => exact (calm_frameEnd f s).keeps
  | lockLost f => exact (calm_lockLost f s).keeps
  | lockBack f => exact (calm_lockBack f s).keeps
  | carrier v k lock => exact (calm_carrierEvent v k lock s).keeps
  | written => exact keepsQueue_writeCompletion s
  | locked => exact (calm_lockCompletion s).keeps
  | second => exact Calm.keeps (calm_of_eq rfl rfl)

/-- Settles O58: an event changes neither the queue nor which cells are pending (`Calm`), or it admits and starts nothing
before its close (`Thins`), which settles the queue where a move has left it or a cell has become pending. -/
theorem stepKeepsQueue : Obligations.StepKeepsQueue := by
  intro s t bounded hstep
  have kept : KeepsQueue s t := by
    obtain rfl | ⟨rest, e⟩ := step_event hstep
    · exact .refl _
    · have taken : Calm s { s with pending := rest } := calm_of_eq rfl rfl
      exact taken.keeps.trans (keepsQueue_event e)
  exact ⟨kept.bounded bounded, kept.held bounded⟩

end Sys2Proof.Machine

namespace Sys2Proof.Machine

/-! ### Settling -/

variable {s : State}

/-- R46: settling is a number of admissions, after which nothing is left to be admitted, and then slot granting. -/
theorem settle_admissions (s : State) :
    ∃ n, settle s = grantAndPass (admitNext^[n] s) ∧ nextAdmission (admitNext^[n] s) = none := by
  obtain ⟨n, _, e⟩ := admitPending_iterate 32 s
  have none : nextAdmission (admitPending 32 s) = none := admitPending_complete 32 (Nat.le_add_left _ _)
  exact ⟨n, by rw [settle, e], e ▸ none⟩

/-- R49: a move that settling leaves RAMPING behind one that WAITS was RAMPING before, because admitted moves stand
WAITING at the tail. -/
theorem settle_byAge (h : MoveQueueBounded s) {i j : Nat} {m n : Move} (hij : i < j) (hm : (settle s).moves[i]? = some m)
    (hn : (settle s).moves[j]? = some n) (waits : m.state = .waiting) (ramps : n.state = .ramping) :
    s.moves[j]? = some n := by
  obtain ⟨k, e, _⟩ := settle_admissions s
  obtain ⟨_, _, _, keys, _⟩ := bounded_iterate_admitNext k h
  have granted : (settle s).moves = (grantSlots 8 (admitNext^[k] s)).moves := by
    rw [e]
    exact (passes_passed _ _).moves
  rw [granted] at hm hn
  have was := grantSlots_byAge 8 keys hij hm hn waits
  obtain ⟨new, moves, waiting⟩ := iterate_admitNext_moves k s
  rw [moves, List.getElem?_append] at was
  split at was
  · exact was
  · exact nomatch ramps.symm.trans (waiting n (List.mem_of_getElem? was))

/-- Settles O32: admission in round-robin order, ramp slots by age, and nothing held back. -/
theorem settleComplete : Obligations.SettleComplete := by
  intro s bounded
  obtain ⟨n, e, none⟩ := settle_admissions s
  refine ⟨(settle_complete bounded).2, ⟨n, e ▸ grantAndPass_settledBy n s, none⟩, admitNext_none,
    fun t z chosen => ⟨admitNext_some chosen, nextAdmission_some chosen⟩, fun i j m n hij hm hn waits ramps => ?_⟩
  exact settle_byAge bounded hij hm hn waits ramps

end Sys2Proof.Machine

namespace Sys2Proof.Machine

/-! ### The completions of a ramp timer expiry (R53, R54) -/

variable {s : State}

/-- R54: a completed move sets the home of a cell. -/
def setsHome (z : Zone) (t : Tenant) (m : Move) : Bool := m.dir == .forward && m.zone == z && m.tenant == t

theorem setsHome_iff {z : Zone} {t : Tenant} {m : Move} :
    setsHome z t m = true ↔ m.dir = .forward ∧ moveKey m = (z, t) := by
  simp [setsHome, moveKey, and_assoc]

/-- The cell with its home at the destination of a completed move, if one sets it. -/
def homeFrom (m : Option Move) (c : Cell) : Cell := m.elim c fun m => { c with home := m.dst }

theorem completeMove_cell (m : Move) (s : State) (z : Zone) (t : Tenant) :
    (completeMove m s).cell z t = if setsHome z t m = true then { s.cell z t with home := m.dst } else s.cell z t := by
  unfold completeMove
  dsimp only
  by_cases forward : m.dir = .forward
  · rw [if_pos forward, State.cell_modCell]
    simp [setsHome, forward]
  · rw [if_neg forward]
    simp [setsHome, forward]

theorem completeMove_moves (m : Move) (s : State) :
    (completeMove m s).moves = s.moves.filter fun n => moveKey n != moveKey m := by
  have dropped : (s.dropMove m.zone m.tenant).moves = s.moves.filter fun n => moveKey n != moveKey m := by
    refine List.filter_congr fun n _ => Bool.eq_iff_iff.mpr ?_
    simp [moveKey, imp_iff_not_or]
  unfold completeMove
  dsimp only
  split <;> exact dropped

theorem completions_moves (l : List Move) (s : State) :
    (l.foldl (fun s m => completeMove m s) s).moves = s.moves.filter fun n => l.all fun m => moveKey n != moveKey m := by
  induction l generalizing s with
  | nil => simp
  | cons m rest ih =>
    rw [List.foldl_cons, ih, completeMove_moves, List.filter_filter]
    refine List.filter_congr fun n _ => ?_
    rw [List.all_cons, Bool.and_comm]

/-- Of moves of different cells, one at most sets the home of a cell. -/
theorem completions_cell (l : List Move) (keys : (l.map moveKey).Nodup) (s : State) (z : Zone) (t : Tenant) :
    (l.foldl (fun s m => completeMove m s) s).cell z t = homeFrom (l.find? (setsHome z t)) (s.cell z t) := by
  induction l generalizing s with
  | nil => rfl
  | cons m rest ih =>
    obtain ⟨alone, keys⟩ := List.nodup_cons.mp keys
    rw [List.foldl_cons, ih keys, completeMove_cell, List.find?_cons]
    by_cases own : setsHome z t m = true
    · have none : rest.find? (setsHome z t) = none := List.find?_eq_none.mpr fun n hn k => by
        obtain ⟨_, mk⟩ := setsHome_iff.mp own
        obtain ⟨_, nk⟩ := setsHome_iff.mp k
        exact alone (mk.trans nk.symm ▸ List.mem_map_of_mem hn)
      rw [if_pos own, none, own]
      rfl
    · rw [if_neg own, Bool.eq_false_iff.mpr own]

/-- R52 to R54: what the moves and homes are before the passes: the moves that are done have left the queue, and the FORWARD
ones have set the homes of their cells. -/
theorem rampMoves_eq (keys : (s.moves.map moveKey).Nodup) :
    rampMoves s =
      { s with
        rampTimer := ⟨true, s.rampTick⟩
        moves := (s.moves.map (advanceMove s.rampStep)).filter fun m => !moveDone m
        cells := tmapIdx (fun z row => tmapIdx (fun t c => homeFrom
          ((s.moves.map (advanceMove s.rampStep)).find? fun m => moveDone m && setsHome z t m) c) row) s.cells } := by
  have key : moveKey ∘ advanceMove s.rampStep = moveKey := funext fun m => by
    obtain ⟨w, e, _⟩ := advanceMove_eq s.rampStep m
    rw [Function.comp_apply, e]
    rfl
  have advanced : ((s.moves.map (advanceMove s.rampStep)).map moveKey).Nodup := by rwa [List.map_map, key]
  generalize ha : s.moves.map (advanceMove s.rampStep) = a at advanced
  have done : ((a.filter moveDone).map moveKey).Nodup := advanced.sublist (List.filter_sublist.map _)
  have moves : (a.filter fun n => (a.filter moveDone).all fun m => moveKey n != moveKey m) =
      a.filter fun m => !moveDone m := List.filter_congr fun n hn => by
    refine Bool.eq_iff_iff.mpr ?_
    rw [List.all_eq_true, Bool.not_eq_true']
    refine ⟨fun left => ?_, fun going m hm => ?_⟩
    · by_contra hd
      simpa using left n (List.mem_filter.mpr ⟨hn, by simpa using hd⟩)
    · obtain ⟨mem, hd⟩ := List.mem_filter.mp hm
      rw [bne_iff_ne]
      intro same
      rw [move_unique advanced hn mem same, hd] at going
      cases going
  have cells : ((a.filter moveDone).foldl (fun s m => completeMove m s)
        { s with moves := a, rampTimer := ⟨true, s.rampTick⟩ }).cells =
      tmapIdx (fun z row => tmapIdx (fun t c => homeFrom (a.find? fun m => moveDone m && setsHome z t m) c) row) s.cells := by
    refine table_ext _ _ fun z => table_ext _ _ fun t => ?_
    have cell := completions_cell _ done { s with moves := a, rampTimer := ⟨true, s.rampTick⟩ } z t
    simp only [List.find?_filter, Bool.decide_and, Bool.decide_eq_true] at cell
    rw [tget_tmapIdx, tget_tmapIdx]
    exact cell
  unfold rampMoves
  dsimp only
  rw [ha, foldl_completeMove_eq, completions_moves, cells, moves]

theorem passed_of_eq {sel : Zone → Prop} {r s t : State} (h : Passed sel r t) (e : r = s) : Passed sel s t := e ▸ h

/-- R52: the advance as the rule tells it. -/
theorem advanceMove_cases (step : Nat) (m : Move) :
    advanceMove step m =
      if m.state = .waiting then m
      else if m.dir = .forward then { m with weight := min (m.weight + step) 32 }
      else { m with weight := m.weight - step } := by
  unfold advanceMove
  cases m.state <;> cases m.dir <;> rfl

/-- R53, R54: the end of a move as the rules tell it. -/
theorem moveDone_cases (m : Move) :
    moveDone m = (m.state == .ramping && ((m.dir == .forward && m.weight == 32) || (m.dir == .reverse && m.weight == 0))) := by
  unfold moveDone
  cases m.state <;> cases m.dir <;> simp

/-- R52 to R55: an expiry with the timer running. -/
theorem rampExpiry_running (h : s.rampTimer.running = true) :
    rampExpiry s = finish s (passes
      (fun z => ((s.moves.map (advanceMove s.rampStep)).filter moveDone).any fun m => m.zone == z) (rampMoves s)) := by
  unfold rampExpiry
  rw [h]
  rfl

end Sys2Proof.Machine

namespace Sys2Proof.Machine.Settled

/-- Settles O33: what the expiry of the ramp timer leaves before its passes (`rampMoves_eq`), the passes and the close. -/
theorem rampExpiry : Obligations.RampExpiry := by
  intro s bounded
  refine ⟨fun stopped => ?_, fun running => ?_⟩
  · have same : Machine.rampExpiry s = s := by rw [Machine.rampExpiry, stopped]; rfl
    exact congrArg Host.Outcome.next same
  · obtain ⟨_, _, _, keys, _⟩ := bounded
    have advances : s.moves.map (fun m =>
        if m.state = .waiting then m
        else if m.dir = .forward then { m with weight := min (m.weight + s.rampStep) 32 }
        else { m with weight := m.weight - s.rampStep }) = s.moves.map (advanceMove s.rampStep) :=
      List.map_congr_left fun m _ => (advanceMove_cases s.rampStep m).symm
    refine ⟨_, _, congrArg Host.Outcome.next (rampExpiry_running running), finish_closed s s _ fun _ => rfl, ?_⟩
    simp only [advances, ← moveDone_cases]
    refine passed_of_eq (passed_congr (passes_passed _ _) fun z => ?_) ((rampMoves_eq keys).trans ?_)
    · simp only [List.any_eq_true, List.mem_filter, beq_iff_eq, and_assoc]
    · congr 1
      refine table_ext _ _ fun z => table_ext _ _ fun t => ?_
      simp only [tget_tmapIdx, setsHome, ← Bool.and_assoc, homeFrom]
      split <;> next e => rw [e]; rfl

end Sys2Proof.Machine.Settled

namespace Sys2Proof.Machine

/-! ### What the census of a tenant reads -/

variable {s x y w : State} {t : Tenant} {k : Sector} {z : Zone}

/-- The two states agree in what the census of a tenant reads: its record, its cells, the moves, the pins and the remotes. -/
structure CensusAgrees (t : Tenant) (x y : State) : Prop where
  tenant : y.tenant t = x.tenant t
  cell : ∀ z, y.cell z t = x.cell z t
  moves : y.moves = x.moves
  zones : y.zones = x.zones
  remotes : y.remotes = x.remotes

theorem CensusAgrees.refl (t : Tenant) (x : State) : CensusAgrees t x x := ⟨rfl, fun _ => rfl, rfl, rfl, rfl⟩

theorem CensusAgrees.trans (h : CensusAgrees t x y) (j : CensusAgrees t y w) : CensusAgrees t x w :=
  ⟨j.tenant.trans h.tenant, fun z => (j.cell z).trans (h.cell z), j.moves.trans h.moves, j.zones.trans h.zones,
    j.remotes.trans h.remotes⟩

theorem CensusAgrees.moveAt (h : CensusAgrees t x y) (z : Zone) : moveAt y z t = moveAt x z t := by
  rw [Machine.moveAt, h.moves, Machine.moveAt]

theorem CensusAgrees.sectorLoad (h : CensusAgrees t x y) (k : Sector) : sectorLoad y t k = sectorLoad x t k := by
  have counted : ∀ z, countedToward y z t = countedToward x z t := fun z => by
    simp only [countedToward, h.cell, h.moveAt]
  simp only [Machine.sectorLoad, counted, h.cell]

theorem CensusAgrees.isOverloaded (h : CensusAgrees t x y) (k : Sector) : isOverloaded y t k = isOverloaded x t k := by
  rw [Machine.isOverloaded, h.tenant, Machine.isOverloaded]

theorem CensusAgrees.winner (h : CensusAgrees t x y) (work : Vector Nat 6) (k : Sector) :
    winner y t work k = winner x t work k := by
  have zone : ∀ z, y.zone z = x.zone z := fun z => by rw [State.zone, h.zones, State.zone]
  have service : ∀ z, inService y z = inService x z := fun z => by
    rw [inService, State.remote, h.remotes, inService, State.remote]
  have eligible : Machine.eligible y t k = Machine.eligible x t k := funext fun z => by
    simp only [Machine.eligible, h.cell, h.moveAt, zone, service]
  have suits : ∀ z, qualifies y t work z = qualifies x t work z := fun z => funext fun a => by
    simp only [qualifies, h.tenant, h.isOverloaded, h.cell]
  simp only [Machine.winner, candidates, eligible, h.cell, suits]

/-! ### One turn of the balancer (R91 to R93) -/

theorem mem_insertByOccupancy (occ : Zone → Nat) (z : Zone) (l : List Zone) (y : Zone) :
    y ∈ insertByOccupancy occ z l ↔ y = z ∨ y ∈ l := by
  induction l with
  | nil => simp [insertByOccupancy]
  | cons x rest ih =>
    unfold insertByOccupancy
    split
    · exact List.mem_cons
    · rw [List.mem_cons, ih, List.mem_cons]
      exact or_left_comm

/-- R92: the candidates are the eligible cells. -/
theorem mem_candidates : z ∈ candidates s t k ↔ eligible s t k z = true := by
  have inserted : ∀ (l start : List Zone),
      z ∈ l.foldl (fun l z => insertByOccupancy (fun y => (s.cell y t).occupancy) z l) start ↔ z ∈ l ∨ z ∈ start := by
    intro l
    induction l with
    | nil => simp
    | cons y rest ih =>
      intro start
      rw [List.foldl_cons, ih, mem_insertByOccupancy, List.mem_cons]
      tauto
  rw [candidates, inserted, List.mem_filter]
  simp [allZones]

theorem winner_some {work : Vector Nat 6} {a : Sector} (h : winner s t work k = some (z, a)) :
    eligible s t k z = true ∧ qualifies s t work z a = true := by
  obtain ⟨y, hy, found⟩ := List.exists_of_findSome?_eq_some h
  obtain ⟨c, hc, pair⟩ := Option.map_eq_some_iff.mp found
  cases pair
  exact ⟨mem_candidates.mp hy, List.find?_some hc⟩

theorem State.modCell_modCell (s : State) (z : Zone) (t : Tenant) (f g : Cell → Cell) :
    (s.modCell z t f).modCell z t g = s.modCell z t fun c => g (f c) := by simp [State.modCell]

/-- R93: what a proposal writes: the cell's target, source and hold-off, and the last proposal of the sector. -/
def proposed (t : Tenant) (k : Sector) (z : Zone) (a : Sector) (s : State) : State :=
  (s.modCell z t fun c =>
    { c with target := .sector a, source := .balancer, holdOff := (s.tenant t).spreading.holdOff }).modTenant t fun r =>
    { r with census := tmod r.census k fun c => { c with proposal := some (z, a) } }

/-- R91, R92: the winner's cell stands at home in service, not pinned and without a move, and its destination is another
sector; so its proposal is a change of target with no further effect. -/
theorem propose_winner {work : Vector Nat 6} {a : Sector} (h : winner s t work k = some (z, a))
    (overloaded : isOverloaded s t k = true) :
    a ≠ k ∧ (s.cell z t).home = .sector k ∧ (s.cell z t).target = .sector k ∧ propose t k z a s = proposed t k z a s := by
  obtain ⟨fits, suits⟩ := winner_some h
  simp only [eligible, Bool.and_eq_true, beq_iff_eq, Bool.not_eq_true', Option.isNone_iff_eq_none] at fits
  obtain ⟨⟨⟨⟨⟨⟨home, still⟩, free⟩, unpinned⟩, serving⟩, _⟩, _⟩ := fits
  simp only [qualifies, Bool.and_eq_true, Bool.not_eq_true'] at suits
  obtain ⟨⟨_, calm⟩, _⟩ := suits
  have away : a ≠ k := by
    rintro rfl
    exact absurd (overloaded.symm.trans calm) (by simp)
  have target : (s.cell z t).target = .sector k := still.trans home
  have moves : (s.cell z t).target ≠ .sector a := by
    rw [target]
    exact fun e => away (Dest.sector.inj e).symm
  have set : setTarget z t (.sector a) .balancer s =
      s.modCell z t fun c => { c with target := .sector a, source := .balancer } := by
    simp [setTarget, unpinned, serving, moves, free]
  refine ⟨away, home, target, ?_⟩
  simp only [propose, proposed, set, State.modCell_modCell, State.tenant_modCell]

/-- R91 to R93: a sector's turn changes nothing, or it makes the proposal of its winner. -/
theorem balanceSector_cases (t : Tenant) (s : State) (work : Vector Nat 6) (k : Sector) :
    (balanceSector t (s, work) k).1 = s ∨
      ∃ z a, k.val < (s.tenant t).sectorCount ∧ isOverloaded s t k = true ∧ a ≠ k ∧ (s.cell z t).home = .sector k ∧
        (s.cell z t).target = .sector k ∧ (balanceSector t (s, work) k).1 = proposed t k z a s := by
  unfold balanceSector
  dsimp only
  split
  · next turn =>
    rw [Bool.and_eq_true, decide_eq_true_eq] at turn
    split
    · next z a won =>
      obtain ⟨away, home, target, e⟩ := propose_winner won turn.2
      exact .inr ⟨z, a, turn.1, turn.2, away, home, target, e⟩
    · exact .inl rfl
  · exact .inl rfl

theorem CensusAgrees.proposed (h : CensusAgrees t x y) (k : Sector) (z : Zone) (a : Sector) :
    CensusAgrees t (proposed t k z a x) (proposed t k z a y) := by
  refine ⟨?_, fun v => ?_, h.moves, h.zones, h.remotes⟩
  · simp only [Machine.proposed, State.tenant_modTenant_same, State.tenant_modCell, h.tenant]
  · simp only [Machine.proposed, State.cell_modTenant, State.cell_modCell, h.cell, h.tenant]

theorem CensusAgrees.balanceSector (h : CensusAgrees t x y) (work : Vector Nat 6) (k : Sector) :
    CensusAgrees t (balanceSector t (x, work) k).1 (balanceSector t (y, work) k).1 ∧
      (balanceSector t (y, work) k).2 = (balanceSector t (x, work) k).2 := by
  unfold Machine.balanceSector
  simp only [h.tenant, h.isOverloaded, h.winner, h.cell]
  split
  · next turn =>
    rw [Bool.and_eq_true] at turn
    split
    · next z a won =>
      obtain ⟨_, _, _, ex⟩ := propose_winner won turn.2
      obtain ⟨_, _, _, ey⟩ := propose_winner (s := y) ((h.winner work k).trans won) ((h.isOverloaded k).trans turn.2)
      rw [ex, ey]
      exact ⟨h.proposed k z a, rfl⟩
    · exact ⟨h, rfl⟩
  · exact ⟨h, rfl⟩

/-- R82: the census of a tenant is that of any state that agrees in what it reads. -/
theorem CensusAgrees.censusTenant (h : CensusAgrees t x y) : CensusAgrees t (censusTenant t x) (censusTenant t y) := by
  have turns : ∀ (l : List Sector) (x y : State) (work : Vector Nat 6), CensusAgrees t x y →
      CensusAgrees t (l.foldl (Machine.balanceSector t) (x, work)).1 (l.foldl (Machine.balanceSector t) (y, work)).1 := by
    intro l
    induction l with
    | nil => exact fun _ _ _ h => h
    | cons k rest ih =>
      intro x y work h
      obtain ⟨agrees, same⟩ := h.balanceSector work k
      have pairs : Machine.balanceSector t (y, work) k =
          ((Machine.balanceSector t (y, work) k).1, (Machine.balanceSector t (x, work) k).2) := Prod.ext rfl same
      rw [List.foldl_cons, List.foldl_cons, pairs]
      exact ih _ _ _ agrees
  have measures : measureSector y t = measureSector x t := funext fun k => funext fun c => by
    simp only [measureSector, h.tenant, h.sectorLoad]
  have measured : CensusAgrees t (measureTenant t x) (measureTenant t y) := by
    refine ⟨?_, h.cell, h.moves, h.zones, h.remotes⟩
    simp only [measureTenant, State.tenant_modTenant_same, h.tenant, measures]
  have active : isActive y t = isActive x t := by rw [isActive, h.tenant, isActive]
  unfold Machine.censusTenant
  rw [active]
  split
  · unfold balance
    rw [measured.tenant]
    split
    · exact turns _ _ _ _ measured
    · exact measured
  · exact h

/-! ### What the census of a tenant writes -/

/-- From `x` to `y` no more has changed than the census of the tenant, and the targets, sources and hold-offs of its cells. -/
structure CensusFrame (t : Tenant) (x y : State) : Prop where
  eq : y = { x with tenants := y.tenants, cells := y.cells }
  tenant : y.tenant t = { x.tenant t with census := (y.tenant t).census }
  cell : ∀ z, y.cell z t =
    { x.cell z t with target := (y.cell z t).target, source := (y.cell z t).source, holdOff := (y.cell z t).holdOff }
  others : ∀ u, t ≠ u → y.tenant u = x.tenant u ∧ ∀ z, y.cell z u = x.cell z u

theorem CensusFrame.refl (t : Tenant) (x : State) : CensusFrame t x x := ⟨rfl, rfl, fun _ => rfl, fun _ _ => ⟨rfl, fun _ => rfl⟩⟩

theorem CensusFrame.trans (h : CensusFrame t x y) (j : CensusFrame t y w) : CensusFrame t x w := by
  refine ⟨?_, ?_, fun z => ?_, fun u hu => ?_⟩
  · rw [j.eq, h.eq]
  · rw [j.tenant, h.tenant]
  · rw [j.cell z, h.cell z]
  · exact ⟨((j.others u hu).1).trans (h.others u hu).1, fun z => ((j.others u hu).2 z).trans ((h.others u hu).2 z)⟩

theorem CensusFrame.home (h : CensusFrame t x y) (z : Zone) : (y.cell z t).home = (x.cell z t).home := by rw [h.cell z]

theorem censusFrame_proposed (t : Tenant) (k : Sector) (z : Zone) (a : Sector) (x : State) :
    CensusFrame t x (proposed t k z a x) := by
  refine ⟨rfl, ?_, fun y => ?_, fun u hu => ⟨?_, fun y => ?_⟩⟩
  · simp only [proposed, State.tenant_modTenant_same, State.tenant_modCell]
  · simp only [proposed, State.cell_modTenant, State.cell_modCell]
    split <;> rfl
  · exact State.tenant_modTenant_ne _ _ _ _ hu
  · simp only [proposed, State.cell_modTenant, State.cell_modCell, hu, and_false, if_false]

/-- From `x` to `y` the census of the sector, and the cells whose home it is, have stayed as they were. -/
structure SectorRests (t : Tenant) (k : Sector) (x y : State) : Prop where
  census : tget (y.tenant t).census k = tget (x.tenant t).census k
  cell : ∀ z, (x.cell z t).home = .sector k → y.cell z t = x.cell z t

/-- From `x` to `y` the OVERLOADED sector has proposed a new target for one of the cells that stood there. -/
def SectorProposes (t : Tenant) (k : Sector) (x y : State) : Prop :=
  ∃ z a, k.val < (x.tenant t).sectorCount ∧ isOverloaded x t k = true ∧ a ≠ k ∧ (x.cell z t).home = .sector k ∧
    (x.cell z t).target = .sector k ∧
    tget (y.tenant t).census k = { tget (x.tenant t).census k with proposal := some (z, a) } ∧
    (y.cell z t).target = .sector a ∧ (y.cell z t).source = .balancer

theorem SectorRests.refl (t : Tenant) (k : Sector) (x : State) : SectorRests t k x x := ⟨rfl, fun _ _ => rfl⟩

theorem SectorRests.trans (h : SectorRests t k x y) (j : SectorRests t k y w) : SectorRests t k x w :=
  ⟨j.census.trans h.census, fun z home => (j.cell z (h.cell z home ▸ home)).trans (h.cell z home)⟩

theorem isOverloaded_congr (h : tget (y.tenant t).census k = tget (x.tenant t).census k) :
    isOverloaded y t k = isOverloaded x t k := by rw [isOverloaded, h, isOverloaded]

/-- A sector that rests before its turn proposes for the cells that stood there at first. -/
theorem SectorRests.proposes (frame : CensusFrame t x y) (h : SectorRests t k x y) (j : SectorProposes t k y w) :
    SectorProposes t k x w := by
  obtain ⟨z, a, below, overloaded, away, home, target, census, became, source⟩ := j
  have before : (x.cell z t).home = .sector k := (frame.home z).symm.trans home
  rw [h.cell z before] at target
  rw [h.census] at census
  have count : (y.tenant t).sectorCount = (x.tenant t).sectorCount := by rw [frame.tenant]
  exact ⟨z, a, count ▸ below, isOverloaded_congr h.census ▸ overloaded, away, before, target, census, became, source⟩

/-- A proposal stands where its sector rests after it. -/
theorem SectorProposes.rests (frame : CensusFrame t x y) (h : SectorProposes t k x y) (j : SectorRests t k y w) :
    SectorProposes t k x w := by
  obtain ⟨z, a, below, overloaded, away, home, target, census, became, source⟩ := h
  have same := j.cell z ((frame.home z).trans home)
  exact ⟨z, a, below, overloaded, away, home, target, j.census.trans census, same ▸ became, same ▸ source⟩

/-- R93: a proposal of one sector leaves the census and the cells of every other. -/
theorem sectorRests_proposed {j : Sector} {a : Sector} (hz : (x.cell z t).home = .sector j) (hk : j ≠ k) :
    SectorRests t k x (proposed t j z a x) := by
  refine ⟨?_, fun v home => ?_⟩
  · simp only [proposed, State.tenant_modTenant_same, State.tenant_modCell, tget_tmod_ne _ _ _ _ hk]
  · have other : z ≠ v := by
      rintro rfl
      exact hk (Dest.sector.inj (hz.symm.trans home))
    simp only [proposed, State.cell_modTenant, State.cell_modCell, other, false_and, if_false]

/-- R91: what the turns of several sectors do: each sector's turn makes one proposal or none, and leaves the other
sectors. -/
theorem balanceTurns (t : Tenant) (l : List Sector) (hl : l.Nodup) (x : State × Vector Nat 6) :
    CensusFrame t x.1 (l.foldl (balanceSector t) x).1 ∧
      ∀ k, SectorRests t k x.1 (l.foldl (balanceSector t) x).1 ∨
        (k ∈ l ∧ SectorProposes t k x.1 (l.foldl (balanceSector t) x).1) := by
  induction l generalizing x with
  | nil => exact ⟨.refl t _, fun k => .inl (.refl t k _)⟩
  | cons j rest ih =>
    obtain ⟨first, nodup⟩ := List.nodup_cons.mp hl
    obtain ⟨later, turns⟩ := ih nodup (balanceSector t x j)
    have turn : CensusFrame t x.1 (balanceSector t x j).1 ∧
        ∀ k, SectorRests t k x.1 (balanceSector t x j).1 ∨ (k = j ∧ SectorProposes t k x.1 (balanceSector t x j).1) := by
      rcases balanceSector_cases t x.1 x.2 j with e | ⟨z, a, below, overloaded, away, home, target, e⟩
      · rw [e]
        exact ⟨.refl t _, fun k => .inl (.refl t k _)⟩
      · rw [e]
        refine ⟨censusFrame_proposed t j z a _, fun k => ?_⟩
        by_cases hk : j = k
        · subst hk
          refine .inr ⟨rfl, z, a, below, overloaded, away, home, target, ?_, ?_, ?_⟩
          · simp only [proposed, State.tenant_modTenant_same, State.tenant_modCell, tget_tmod_same]
          · simp only [proposed, State.cell_modTenant, State.cell_modCell_same]
          · simp only [proposed, State.cell_modTenant, State.cell_modCell_same]
        · exact .inl (sectorRests_proposed home hk)
    obtain ⟨frame, own⟩ := turn
    rw [List.foldl_cons]
    refine ⟨frame.trans later, fun k => ?_⟩
    rcases own k with rests | ⟨rfl, proposes⟩
    · rcases turns k with then_rests | ⟨mem, then_proposes⟩
      · exact .inl (rests.trans then_rests)
      · exact .inr ⟨List.mem_cons_of_mem _ mem, rests.proposes frame then_proposes⟩
    · rcases turns k with then_rests | ⟨mem, _⟩
      · exact .inr ⟨List.mem_cons_self, proposes.rests frame then_rests⟩
      · exact absurd mem first

end Sys2Proof.Machine

namespace Sys2Proof.Machine

/-! ### Loads (R83) -/

variable {s x y w : State} {t : Tenant} {k : Sector} {z : Zone}

theorem foldl_add_if {α : Type} (p : α → Prop) [DecidablePred p] (f : α → Nat) (l : List α) (n : Nat) :
    l.foldl (fun n a => if p a then n + f a else n) n = n + ((l.filter fun a => p a).map f).sum := by
  induction l generalizing n with
  | nil => rfl
  | cons a rest ih =>
    rw [List.foldl_cons, ih, List.filter_cons]
    split
    · next h => simp [h, Nat.add_assoc]
    · next h => simp [h]

/-- R83: a load is the sum of the occupancies of the cells counted toward the sector. -/
theorem sectorLoad_sum (s : State) (t : Tenant) (k : Sector) :
    sectorLoad s t k =
      ((allZones.filter fun z => countedToward s z t = .sector k).map fun z => (s.cell z t).occupancy).sum := by
  rw [sectorLoad, foldl_add_if fun z => countedToward s z t = .sector k, Nat.zero_add]

/-! ### The census of a tenant (R82, R93) -/

theorem isActive_iff : isActive s t = true ↔ (s.tenant t).state = .active := by simp [isActive]

theorem censusTenant_inactive (h : (s.tenant t).state ≠ .active) : censusTenant t s = s := by
  rw [censusTenant, if_neg (mt isActive_iff.mp h)]

/-- R83, R85, R86: what the census of an ACTIVE tenant measures of a sector. -/
theorem measureTenant_census (s : State) (t : Tenant) (k : Sector) :
    tget ((measureTenant t s).tenant t).census k = measureSector s t k (tget (s.tenant t).census k) := by
  simp [measureTenant]

theorem censusFrame_measureTenant (t : Tenant) (s : State) : CensusFrame t s (measureTenant t s) := by
  refine ⟨rfl, ?_, fun _ => rfl, fun u hu => ⟨State.tenant_modTenant_ne _ _ _ _ hu, fun _ => rfl⟩⟩
  simp only [measureTenant, State.tenant_modTenant_same]

/-- R82: the census of an ACTIVE tenant measures its sectors, and then each sector proposes or rests; with spreading
disabled all rest. -/
theorem censusTenant_turns (h : (s.tenant t).state = .active) :
    CensusFrame t (measureTenant t s) (censusTenant t s) ∧
      ∀ k, SectorRests t k (measureTenant t s) (censusTenant t s) ∨
        ((s.tenant t).spreading.enable = true ∧ SectorProposes t k (measureTenant t s) (censusTenant t s)) := by
  have enable : ((measureTenant t s).tenant t).spreading = (s.tenant t).spreading := by
    rw [(censusFrame_measureTenant t s).tenant]
  rw [censusTenant, if_pos (isActive_iff.mpr h), balance, enable]
  split
  · next on =>
    obtain ⟨frame, turns⟩ := balanceTurns t allSectors (by decide)
      (measureTenant t s, tmapIdx (fun _ c => c.load) ((measureTenant t s).tenant t).census)
    exact ⟨frame, fun k => (turns k).imp id fun ⟨_, proposes⟩ => ⟨on, proposes⟩⟩
  · exact ⟨.refl t _, fun k => .inl (.refl t k _)⟩

theorem censusFrame_censusTenant (t : Tenant) (s : State) : CensusFrame t s (censusTenant t s) := by
  by_cases h : (s.tenant t).state = .active
  · exact (censusFrame_measureTenant t s).trans (censusTenant_turns h).1
  · rw [censusTenant_inactive h]
    exact .refl t s

/-- R83 to R86: the load and the overload state of a measured sector, which proposals leave. -/
theorem censusTenant_measured (h : (s.tenant t).state = .active) (hk : k.val < (s.tenant t).sectorCount) :
    (tget ((censusTenant t s).tenant t).census k).load = sectorLoad s t k ∧
      (tget ((censusTenant t s).tenant t).census k).overload =
        nextOverload (s.tenant t).spreading (sectorLoad s t k) (tget (s.tenant t).census k).overload := by
  have measured := measureTenant_census s t k
  rw [measureSector, if_pos hk] at measured
  obtain ⟨_, turns⟩ := censusTenant_turns h
  rcases turns k with rests | ⟨_, z, a, _, _, _, _, _, census, _⟩
  · rw [rests.census, measured]
    exact ⟨rfl, rfl⟩
  · rw [census, measured]
    exact ⟨rfl, rfl⟩

/-- R84: a sector at or above the count, and every sector of a tenant that is not ACTIVE, keeps its census. -/
theorem censusTenant_unmeasured (h : ¬ ((s.tenant t).state = .active ∧ k.val < (s.tenant t).sectorCount)) :
    tget ((censusTenant t s).tenant t).census k = tget (s.tenant t).census k := by
  by_cases active : (s.tenant t).state = .active
  · have above : ¬ k.val < (s.tenant t).sectorCount := fun below => h ⟨active, below⟩
    have measured := measureTenant_census s t k
    rw [measureSector, if_neg above] at measured
    have count : ((measureTenant t s).tenant t).sectorCount = (s.tenant t).sectorCount := by
      rw [(censusFrame_measureTenant t s).tenant]
    obtain ⟨_, turns⟩ := censusTenant_turns active
    rcases turns k with rests | ⟨_, z, a, below, _⟩
    · exact rests.census.trans measured
    · exact absurd (count ▸ below) above
  · rw [censusTenant_inactive active]

/-- R93: the last proposal of a measured sector names the cell whose target the census has changed, and is none where it
has changed none. -/
theorem censusTenant_proposal (h : (s.tenant t).state = .active) (hk : k.val < (s.tenant t).sectorCount) :
    (∀ z a, (tget ((censusTenant t s).tenant t).census k).proposal = some (z, a) →
      (s.tenant t).spreading.enable = true ∧
        (∃ n, nextOverload (s.tenant t).spreading (sectorLoad s t k) (tget (s.tenant t).census k).overload =
          .overloaded n) ∧
        a ≠ k ∧ (s.cell z t).home = .sector k ∧ (s.cell z t).target = .sector k ∧
        ((censusTenant t s).cell z t).target = .sector a ∧ ((censusTenant t s).cell z t).source = .balancer) ∧
    ((tget ((censusTenant t s).tenant t).census k).proposal = none →
      ∀ z, (s.cell z t).home = .sector k → ((censusTenant t s).cell z t).target = (s.cell z t).target) := by
  have measured := measureTenant_census s t k
  rw [measureSector, if_pos hk] at measured
  obtain ⟨_, turns⟩ := censusTenant_turns h
  rcases turns k with rests | ⟨enable, y, b, _, overloaded, away, home, target, census, became, source⟩
  · have none : (tget ((censusTenant t s).tenant t).census k).proposal = Option.none := by rw [rests.census, measured]
    exact ⟨fun z a some => (nomatch none.symm.trans some), fun _ z home => congrArg Cell.target (rests.cell z home)⟩
  · rw [census]
    refine ⟨fun z a same => ?_, fun none => nomatch none⟩
    obtain ⟨rfl, rfl⟩ := Prod.mk.inj (Option.some.inj same)
    refine ⟨enable, ?_, away, home, target, became, source⟩
    unfold isOverloaded at overloaded
    rw [measured] at overloaded
    split at overloaded
    · next n e => exact ⟨n, e⟩
    · cases overloaded

/-! ### The census of all tenants -/

/-- The tenants' part of a census timer expiry: the timer, and then each tenant's census. -/
def measuredPart (s : State) : State :=
  allTenants.foldl (fun s t => censusTenant t s) { s with censusTimer := ⟨true, s.censusInterval⟩ }

theorem CensusFrame.agrees {u : Tenant} (h : CensusFrame u x y) (hu : u ≠ t) : CensusAgrees t x y := by
  obtain ⟨tenant, cell⟩ := h.others t hu
  refine ⟨tenant, cell, ?_, ?_, ?_⟩ <;> rw [h.eq]

/-- R82: each tenant's census is as if it were the only one. -/
theorem censuses_agree (l : List Tenant) (hl : l.Nodup) (x : State) (t : Tenant) :
    (t ∈ l → CensusAgrees t (censusTenant t x) (l.foldl (fun s t => censusTenant t s) x)) ∧
      (t ∉ l → CensusAgrees t x (l.foldl (fun s t => censusTenant t s) x)) := by
  induction l generalizing x with
  | nil => exact ⟨fun h => (nomatch h), fun _ => .refl t x⟩
  | cons u rest ih =>
    obtain ⟨first, nodup⟩ := List.nodup_cons.mp hl
    obtain ⟨inside, outside⟩ := ih nodup (censusTenant u x)
    rw [List.foldl_cons]
    by_cases e : u = t
    · subst e
      exact ⟨fun _ => outside first, fun h => absurd List.mem_cons_self h⟩
    · have before := (censusFrame_censusTenant u x).agrees e
      exact ⟨fun h => before.censusTenant.trans (inside ((List.mem_cons.mp h).resolve_left (Ne.symm e))),
        fun h => before.trans (outside fun mem => h (List.mem_cons_of_mem _ mem))⟩

theorem measuredPart_agrees (s : State) (t : Tenant) : CensusAgrees t (censusTenant t s) (measuredPart s) := by
  have begun : CensusAgrees t s { s with censusTimer := ⟨true, s.censusInterval⟩ } :=
    ⟨rfl, fun _ => rfl, rfl, rfl, rfl⟩
  have mem : ∀ u : Tenant, u ∈ allTenants := by decide
  exact begun.censusTenant.trans ((censuses_agree allTenants (by decide) _ t).1 (mem t))

theorem measuredPart_eq (s : State) :
    measuredPart s =
      { s with
        censusTimer := ⟨true, s.censusInterval⟩
        tenants := (measuredPart s).tenants
        cells := (measuredPart s).cells } := by
  refine foldl_kept (P := fun x : State =>
    x = { s with censusTimer := ⟨true, s.censusInterval⟩, tenants := x.tenants, cells := x.cells }) (fun x t h => ?_)
    allTenants rfl
  rw [(censusFrame_censusTenant t x).eq, h]

theorem measuredPart_tenant (s : State) (t : Tenant) :
    (measuredPart s).tenant t = { s.tenant t with census := ((measuredPart s).tenant t).census } := by
  rw [(measuredPart_agrees s t).tenant]
  exact (censusFrame_censusTenant t s).tenant

/-! ### The entries of a census (R87) -/

theorem saturated_same (v : Spreading) (o : Overload) : saturated v o o = none := by
  unfold saturated
  split
  · simp
  · rfl

/-- R87: the entry of a saturated sector. -/
def saturatedEntry (s : State) (t : Tenant) (k : Sector) (n : Nat) : Entry :=
  { kind := .sectorSaturated, time := s.seconds, vis := .tenant t, tenant := some t, sector := some k, count := some n }

/-- R87: the measured sectors alone can call for an entry. -/
theorem saturatedEntries_measured (s : State) (t : Tenant) :
    saturatedEntries { s with censusTimer := ⟨true, s.censusInterval⟩ } (measuredPart s) t =
      allSectors.filterMap fun k =>
        if (s.tenant t).state = .active ∧ k.val < (s.tenant t).sectorCount then
          (saturated (s.tenant t).spreading (tget (s.tenant t).census k).overload
            (nextOverload (s.tenant t).spreading (sectorLoad s t k) (tget (s.tenant t).census k).overload)).map
            (saturatedEntry s t k)
        else none := by
  have active : isActive { s with censusTimer := ⟨true, s.censusInterval⟩ } t = isActive s t := rfl
  unfold saturatedEntries
  rw [active, (measuredPart_agrees s t).tenant]
  by_cases h : (s.tenant t).state = .active
  · rw [if_pos (isActive_iff.mpr h)]
    refine List.filterMap_congr fun k _ => ?_
    by_cases hk : k.val < (s.tenant t).sectorCount
    · rw [if_pos ⟨h, hk⟩, (censusTenant_measured h hk).2]
      rfl
    · rw [if_neg fun both => hk both.2, censusTenant_unmeasured fun both => hk both.2]
      have none := saturated_same (s.tenant t).spreading (tget (s.tenant t).census k).overload
      exact congrArg (Option.map _) none
  · rw [if_neg (mt isActive_iff.mp h)]
    exact (List.filterMap_eq_nil_iff.mpr fun k _ => if_neg fun both => h both.1).symm

end Sys2Proof.Machine

namespace Sys2Proof.Machine

variable {s b : State} {t : Tenant} {z : Zone}

/-! ### The wake step (R82 step 3, R98) -/

/-- The two states agree in what the wake step reads. -/
structure WakesAs (s b : State) : Prop where
  mode : b.venueMode = s.venueMode
  dark : b.standbyDark = s.standbyDark
  cls : ∀ z, (b.zone z).cls = (s.zone z).cls
  threshold : b.wakeThreshold = s.wakeThreshold
  debounce : b.wakeDebounce = s.wakeDebounce
  count : b.wakeCount = s.wakeCount
  occupancy : ∀ z t, (b.cell z t).occupancy = (s.cell z t).occupancy

theorem WakesAs.nextWakeCount (h : WakesAs s b) : nextWakeCount b = nextWakeCount s := by
  have dim : ∀ z, dimmed b z = dimmed s z := fun z => dimmed_congr h.mode h.dark (h.cls z)
  have total : wakeTotal b = wakeTotal s := by simp only [wakeTotal, h.occupancy, dim]
  simp only [Machine.nextWakeCount, total, h.threshold, h.count]

theorem WakesAs.wakes (h : WakesAs s b) : wakes b = wakes s := by
  simp only [Machine.wakes, h.nextWakeCount, h.mode, h.threshold, h.debounce]

theorem wakesAs_of_eq {τ : Timer} (h : b = { s with censusTimer := τ, tenants := b.tenants, cells := b.cells })
    (occupancy : ∀ z t, (b.cell z t).occupancy = (s.cell z t).occupancy) : WakesAs s b := by
  refine ⟨?_, ?_, fun z => ?_, ?_, ?_, ?_, occupancy⟩ <;> rw [h]
  rfl

theorem standby_of_wakes (h : wakes s = true) : s.venueMode = .standby := by
  simp only [wakes, Bool.and_eq_true, beq_iff_eq] at h
  obtain ⟨⟨standby, _⟩, _⟩ := h
  exact standby

/-- R98, R99: a wake sets the mode to EVENT with the passes where the dimmed flag changes. -/
theorem WakesAs.wakeStep_wakes (h : WakesAs s b) (wake : Machine.wakes s = true) :
    Passed (fun z => dimmed s z ≠ dimmed { s with venueMode := .event } z) { b with venueMode := .event, wakeCount := 0 }
      (wakeStep b) := by
  rw [wakeStep, if_pos (h.mode.trans (standby_of_wakes wake)), if_pos (h.wakes.trans wake)]
  refine passed_congr (passDimmed_passed _ _) fun z => ?_
  have before := dimmed_congr h.mode h.dark (h.cls z)
  have after : dimmed { b with venueMode := .event, wakeCount := 0 } z = dimmed { s with venueMode := .event } z :=
    dimmed_congr rfl h.dark (h.cls z)
  rw [before, after]

/-- R98: without a wake the wake count alone changes, and in STANDBY only. -/
theorem WakesAs.wakeStep_sleeps (h : WakesAs s b) (wake : Machine.wakes s = false) :
    wakeStep b = { b with wakeCount := if s.venueMode = .event then s.wakeCount else Machine.nextWakeCount s } := by
  have still : ¬ Machine.wakes b = true := by simp [h.wakes, wake]
  cases mode : s.venueMode with
  | standby =>
    rw [wakeStep, if_pos (h.mode.trans mode), if_neg still, h.nextWakeCount]
    rfl
  | event =>
    have event : b.venueMode ≠ .standby := by simp [h.mode, mode]
    rw [wakeStep, if_neg event, if_pos rfl, ← h.count]

/-! ### The state before the wake step (R82) -/

/-- What a census leaves before its wake step: the tenants measured, and the hold-offs counted down. -/
def censusCounted (s : State) : State := countHoldOffs (measuredPart s)

/-- R82: an expiry with the timer running. -/
theorem censusExpiry_running (h : s.censusTimer.running = true) :
    censusExpiry s = finish s
      ((censusEntries { s with censusTimer := ⟨true, s.censusInterval⟩ } (measuredPart s)).foldl
        (fun s e => appendLog e s) (wakeStep (censusCounted s))) := by
  unfold censusExpiry
  rw [h]
  rfl

theorem countHoldOffs_tenant (s : State) (t : Tenant) : (countHoldOffs s).tenant t = s.tenant t := rfl

theorem countHoldOffs_of_eq {x : State} {τ : Timer}
    (h : x = { s with censusTimer := τ, tenants := x.tenants, cells := x.cells }) :
    countHoldOffs x =
      { s with censusTimer := τ, tenants := (countHoldOffs x).tenants, cells := (countHoldOffs x).cells } :=
  congrArg (fun y : State => { y with cells := (countHoldOffs x).cells }) h

theorem censusCounted_tenant_eq (s : State) (t : Tenant) :
    (censusCounted s).tenant t = (censusTenant t s).tenant t := by
  rw [censusCounted, countHoldOffs_tenant, (measuredPart_agrees s t).tenant]

theorem censusCounted_tenant (s : State) (t : Tenant) :
    (censusCounted s).tenant t = { s.tenant t with census := ((censusCounted s).tenant t).census } := by
  rw [censusCounted_tenant_eq]
  exact (censusFrame_censusTenant t s).tenant

theorem censusCounted_eq (s : State) :
    censusCounted s =
      { s with
        censusTimer := ⟨true, s.censusInterval⟩
        tenants := (censusCounted s).tenants
        cells := (censusCounted s).cells } :=
  countHoldOffs_of_eq (measuredPart_eq s)

/-- R82 step 2, R95: the cells of each tenant are those of its own census, with the hold-offs of an admitted tenant
counted down. -/
theorem censusCounted_cell (s : State) (z : Zone) (t : Tenant) :
    (censusCounted s).cell z t =
      { (censusTenant t s).cell z t with
        holdOff :=
          if (s.tenant t).state = .vacant then ((censusTenant t s).cell z t).holdOff
          else ((censusTenant t s).cell z t).holdOff - 1 } := by
  have state : ((measuredPart s).tenant t).state = (s.tenant t).state := by rw [measuredPart_tenant]
  rw [censusCounted, countHoldOffs_cell, (measuredPart_agrees s t).cell z, admitted, state]
  by_cases h : (s.tenant t).state = .vacant
  · rw [if_pos h, if_neg (by simp [h])]
  · rw [if_neg h, if_pos (by simp [h]), countDown]

theorem censusCounted_cell_frame (s : State) (z : Zone) (t : Tenant) :
    (censusCounted s).cell z t =
      { s.cell z t with
        target := ((censusCounted s).cell z t).target
        source := ((censusCounted s).cell z t).source
        holdOff := ((censusCounted s).cell z t).holdOff } := by
  rw [censusCounted_cell, (censusFrame_censusTenant t s).cell z]

/-- R82: the wake step takes what it reads as it was before the census. -/
theorem wakesAs_censusCounted (s : State) : WakesAs s (censusCounted s) :=
  wakesAs_of_eq (censusCounted_eq s) fun z t => by rw [censusCounted_cell_frame]

/-- R87, R99: the entries of a census. -/
theorem censusEntries_measured (s : State) :
    censusEntries { s with censusTimer := ⟨true, s.censusInterval⟩ } (measuredPart s) =
      (allTenants.flatMap fun t => allSectors.filterMap fun k =>
        if (s.tenant t).state = .active ∧ k.val < (s.tenant t).sectorCount then
          (saturated (s.tenant t).spreading (tget (s.tenant t).census k).overload
            (nextOverload (s.tenant t).spreading (sectorLoad s t k) (tget (s.tenant t).census k).overload)).map
            (saturatedEntry s t k)
        else none) ++
        if wakes s = true then [{ kind := .venueWake, time := s.seconds, vis := .all }] else [] :=
  congrArg (· ++ _) (List.flatMap_congr fun t _ => saturatedEntries_measured s t)

/-- R83: when a cell counts toward a sector. -/
theorem countedToward_sector (s : State) (z : Zone) (t : Tenant) (k : Sector) :
    decide (countedToward s z t = .sector k) =
      ((s.cell z t).home != .dark &&
        match moveAt s z t with
        | some m => (if m.state = .ramping ∧ 16 ≤ m.weight then m.dst else (s.cell z t).home) == .sector k
        | none => (s.cell z t).home == .sector k) := by
  unfold countedToward
  by_cases dark : (s.cell z t).home = .dark
  · rw [if_pos dark, dark]
    rfl
  · rw [if_neg dark, bne_iff_ne.mpr dark, Bool.true_and]
    cases moveAt s z t <;> rfl

end Sys2Proof.Machine

namespace Sys2Proof.Machine.Settled

/-- Settles O40: the loads (`countedToward_sector`); then, with `b` the state before the wake step (`censusCounted`), the
census of each tenant as it would be alone, the wake step, the entries and the close. -/
theorem censusExpiry : Obligations.CensusExpiry := by
  intro s
  refine ⟨fun stopped => ?_, fun t k => ?_, fun running => ?_⟩
  · have same : Machine.censusExpiry s = s := by rw [Machine.censusExpiry, stopped]; rfl
    exact congrArg Host.Outcome.next same
  · rw [sectorLoad_sum]
    exact congrArg (fun l : List Zone => (l.map fun z => (s.cell z t).occupancy).sum) (List.filter_congr fun z _ => countedToward_sector s z t k)
  · intro measured state entry entries count wake
    have expiry := censusExpiry_running running
    rw [censusEntries_measured] at expiry
    refine ⟨censusCounted s, wakeStep (censusCounted s), _, congrArg Host.Outcome.next expiry, censusCounted_eq s,
      censusCounted_tenant s, ?loads, ?unmeasured, censusCounted_cell_frame s, ?alone, ?proposals, ?inactive,
      (wakesAs_censusCounted s).wakeStep_wakes, (wakesAs_censusCounted s).wakeStep_sleeps, finish_closed s s _ fun _ => rfl⟩
    case loads =>
      rintro t k ⟨active, below⟩
      rw [censusCounted_tenant_eq]
      exact censusTenant_measured active below
    case unmeasured =>
      intro t k not
      rw [censusCounted_tenant_eq]
      exact censusTenant_unmeasured not
    case alone =>
      intro t active
      refine ⟨congrArg TenantRec.census (censusCounted_tenant_eq s t), fun z => ?_⟩
      rw [censusCounted_cell, if_neg (by simp [active])]
      exact ⟨rfl, rfl, rfl⟩
    case proposals =>
      rintro t k ⟨active, below⟩
      simp only [censusCounted_tenant_eq, censusCounted_cell]
      exact censusTenant_proposal active below
    case inactive =>
      intro t z not
      rw [censusCounted_cell, censusTenant_inactive not]
      refine ⟨rfl, rfl, ?_⟩
      cases e : (s.tenant t).state with
      | vacant => rfl
      | active => exact absurd e not
      | suspended => rfl

end Sys2Proof.Machine.Settled

namespace Sys2Proof.Machine

/-! ### Scene slots -/

theorem storeScene_range {b : Byte} {t : Tenant} (h : 3 < b.toNat) (s : State) :
    storeScene t b s = setResult (.tenant t) .range s := by
  simp only [storeScene, slotOf_none h]

theorem storeScene_slot {b : Byte} {t : Tenant} {k : Slot} (h : b.toNat = k.val) (s : State) :
    storeScene t b s = setScene t k (some (targetsScene t s)) (setResult (.tenant t) .ok s) := by
  simp only [storeScene, slotOf_some h]
  rfl

theorem clearScene_range {b : Byte} {t : Tenant} (h : 3 < b.toNat) (s : State) :
    clearScene t b s = setResult (.tenant t) .range s := by
  simp only [clearScene, slotOf_none h]

theorem clearScene_slot {b : Byte} {t : Tenant} {k : Slot} (h : b.toNat = k.val) (s : State) :
    clearScene t b s = setScene t k none (setResult (.tenant t) .ok s) := by
  simp only [clearScene, slotOf_some h]
  rfl

theorem sceneElement_skipped {t : Tenant} {k : Slot} {b : Byte} {s : State}
    (h : sceneEntryOf (s.tenant t).sectorCount b = none) :
    sceneElement t k b s = setResult (.tenant t) .skipped (advancePointer (.tenant t) s) := by
  rw [← advancePointer_setResult]
  simp only [sceneElement, h]

/-- R69: the entry written and the pointer's move touch different records. -/
theorem sceneElement_written {t : Tenant} {k : Slot} {b : Byte} {e : SceneEntry} {s : State}
    (h : sceneEntryOf (s.tenant t).sectorCount b = some e) :
    sceneElement t k b s =
      setScene t k (some (writeEntry (sceneAt s t k) (s.port (.tenant t)).pointer e)) (advancePointer (.tenant t) s) := by
  simp only [sceneElement, h]
  rfl

end Sys2Proof.Machine

namespace Sys2Proof.Machine.Settled

/-- Settles O34: the refusal and the effect of `storeScene` and of `clearScene`, and the two outcomes of `sceneElement`. -/
theorem sceneSlots : Obligations.SceneSlots := by
  intro s t b
  refine ⟨fun ready active => ?fixed, fun k streaming => ?element⟩
  case fixed =>
    have store : exec (.storeScene (.tenant t) (Burst.whole [b])) s =
        .next (Machine.storeScene t b (afterFixed (.tenant t) .storeScene 1 .incomplete s)) :=
      exec_tenant ready active (c := .storeScene) rfl rfl rfl
    have clear : exec (.clearScene (.tenant t) (Burst.whole [b])) s =
        .next (Machine.clearScene t b (afterFixed (.tenant t) .clearScene 1 .incomplete s)) :=
      exec_tenant ready active (c := .clearScene) rfl rfl rfl
    refine ⟨fun above => ⟨exec_result store (storeScene_range above _), exec_result clear (clearScene_range above _)⟩,
      fun k slot => ?_⟩
    rw [storeScene_slot slot, setResult_afterFixed] at store
    rw [clearScene_slot slot, setResult_afterFixed] at clear
    exact ⟨store, clear⟩
  case element =>
    have run : exec (.writeSceneElement (.tenant t) (Clocked.whole [b])) s =
        .next (Machine.sceneElement t k b (afterElement (.tenant t) 1 s)) :=
      exec_streaming streaming (row := .writeSceneElement) (by simp [elementRows]) rfl
    have pointer : ((afterElement (.tenant t) 1 s).port (.tenant t)).pointer = (s.port (.tenant t)).pointer := by
      simp [afterElement]
    refine ⟨fun skipped => run.trans (congrArg _ (sceneElement_skipped skipped)), fun e entry => ?_⟩
    have written := run.trans (congrArg _ (sceneElement_written entry))
    rw [pointer] at written
    exact written

end Sys2Proof.Machine.Settled

namespace Sys2Proof.Machine

/-! ### SET SPREADING (R89) -/

section

variable {flags h1 h0 l1 l0 debounce long hold : Byte} {t : Tenant} {s : State}

theorem setSpreading_range (h : 12240 < be16 h1 h0 ∨ be16 h1 h0 ≤ be16 l1 l0) :
    setSpreading t flags h1 h0 l1 l0 debounce long hold s = setResult (.tenant t) .range s := if_pos h

/-- R89: the result is CLAMPED exactly where the debounce or the long count was held. -/
theorem setSpreading_accepted (high : be16 h1 h0 ≤ 12240) (low : be16 l1 l0 < be16 h1 h0) :
    setSpreading t flags h1 h0 l1 l0 debounce long hold s =
      (setResult (.tenant t) (if debounce.toNat = 0 ∨ 15 < debounce.toNat ∨ long.toNat < 4 then .clamped else .ok)
        s).modTenant t fun r => { r with spreading := spreadingOf flags h1 h0 l1 l0 debounce long hold } := by
  have inRange : ¬ (12240 < be16 h1 h0 ∨ be16 h1 h0 ≤ be16 l1 l0) := by omega
  have held : (clampFrom1 15 debounce.toNat != debounce.toNat || max 4 long.toNat != long.toNat) = true ↔
      (debounce.toNat = 0 ∨ 15 < debounce.toNat ∨ long.toNat < 4) := by
    simp only [Bool.or_eq_true, bne_iff_ne, clampFrom1_ne]
    omega
  rw [← clampResult_iff held]
  exact if_neg inRange

end

end Sys2Proof.Machine

namespace Sys2Proof.Machine.Settled

/-- Settles O36: the refusal of `setSpreading`, and the settings it stores. -/
theorem setSpreading : Obligations.SetSpreading := by
  intro s t flags h1 h0 l1 l0 debounce long hold ready active
  have run : exec (.setSpreading (.tenant t) (Burst.whole [flags, h1, h0, l1, l0, debounce, long, hold])) s =
      .next (Machine.setSpreading t flags h1 h0 l1 l0 debounce long hold
        (afterFixed (.tenant t) .setSpreading 8 .incomplete s)) :=
    exec_tenant ready active (c := .setSpreading) rfl rfl rfl
  refine ⟨fun refused => exec_result run (setSpreading_range refused), fun high low => ?_⟩
  rw [setSpreading_accepted high low, setResult_afterFixed] at run
  exact run

end Sys2Proof.Machine.Settled

namespace Sys2Proof.Machine

/-! ### Overload states (R85 to R87) -/

section

variable {v : Spreading} {load : Nat}

theorem nextOverload_belowHigh (h : load < v.high) :
    nextOverload v load .calm = .calm ∧ ∀ k, nextOverload v load (.rising k) = .calm :=
  ⟨if_neg (Nat.not_le.mpr h), fun _ => if_neg (Nat.not_le.mpr h)⟩

theorem nextOverload_atHigh (h : v.high ≤ load) :
    nextOverload v load .calm = riseTo v.debounce 1 ∧
      ∀ k, nextOverload v load (.rising k) = riseTo v.debounce (k + 1) :=
  ⟨if_pos h, fun _ => if_pos h⟩

theorem nextOverload_atLow (h : v.low ≤ load) :
    (∀ n, nextOverload v load (.overloaded n) = .overloaded (min (n + 1) 65535)) ∧
      ∀ k n, nextOverload v load (.falling k n) = .overloaded n :=
  ⟨fun _ => if_pos h, fun _ _ => if_pos h⟩

theorem nextOverload_belowLow (h : load < v.low) :
    (∀ n, nextOverload v load (.overloaded n) = fallTo v.debounce 1 n) ∧
      ∀ k n, nextOverload v load (.falling k n) = fallTo v.debounce (k + 1) n :=
  ⟨fun _ => if_neg (Nat.not_le.mpr h), fun _ _ => if_neg (Nat.not_le.mpr h)⟩

/-- R87: an entry tells of an OVERLOADED count that has just risen to the long count, or to a multiple of it. -/
theorem saturated_some_iff {before after : Overload} {m : Nat} :
    saturated v before after = some m ↔
      after = .overloaded m ∧ (∃ n, before = .overloaded n ∧ n < m) ∧
        (m = v.longCount ∨ (v.repeats = true ∧ m % v.longCount = 0)) := by
  unfold saturated
  split
  · next n l =>
    rw [Option.ite_none_right_eq_some, Option.some.injEq, Overload.overloaded.injEq]
    constructor
    · rintro ⟨⟨rises, calls⟩, rfl⟩
      exact ⟨rfl, ⟨n, rfl, rises⟩, calls⟩
    · rintro ⟨rfl, ⟨_, same, rises⟩, calls⟩
      cases same
      exact ⟨⟨rises, calls⟩, rfl⟩
  · next other =>
    refine iff_of_false (by simp) ?_
    rintro ⟨rfl, ⟨n, rfl, _⟩, _⟩
    exact other n m rfl rfl

end

/-! ### The order of the candidates (R92) -/

/-- R92: the zone stands before another one: it has the greater occupancy, or the same and the lower number. -/
def Ahead (occ : Zone → Nat) (y z : Zone) : Prop := occ z < occ y ∨ (occ y = occ z ∧ y < z)

theorem Ahead.trans {occ : Zone → Nat} {x y z : Zone} (h : Ahead occ x y) (j : Ahead occ y z) : Ahead occ x z := by
  simp only [Ahead, Fin.lt_def] at *
  omega

theorem Ahead.asymm {occ : Zone → Nat} {y z : Zone} (h : Ahead occ y z) : ¬ Ahead occ z y := by
  simp only [Ahead, Fin.lt_def] at *
  omega

/-- R92: a zone put into an ordered list of lower zones leaves it ordered. -/
theorem insertByOccupancy_ordered {occ : Zone → Nat} {z : Zone} {l : List Zone} (ordered : l.Pairwise (Ahead occ))
    (lower : ∀ y ∈ l, y < z) : (insertByOccupancy occ z l).Pairwise (Ahead occ) := by
  induction l with
  | nil => exact List.pairwise_singleton _ z
  | cons y rest ih =>
    obtain ⟨first, others⟩ := List.pairwise_cons.mp ordered
    obtain ⟨below, belowOthers⟩ := List.forall_mem_cons.mp lower
    unfold insertByOccupancy
    split
    · next greater =>
      have ahead : Ahead occ z y := .inl greater
      exact List.pairwise_cons.mpr ⟨List.forall_mem_cons.mpr ⟨ahead, fun x hx => ahead.trans (first x hx)⟩, ordered⟩
    · next notGreater =>
      refine List.pairwise_cons.mpr ⟨fun x hx => ?_, ih others belowOthers⟩
      rcases (mem_insertByOccupancy occ z rest x).mp hx with rfl | old
      · exact (Nat.lt_or_eq_of_le (Nat.not_lt.mp notGreater)).imp_right fun same => ⟨same.symm, below⟩
      · exact first x old

/-- R92: the zones of an ascending list, put one by one into an ordered list of lower zones. -/
theorem foldl_insertByOccupancy_ordered {occ : Zone → Nat} {l start : List Zone} (ascending : l.Pairwise (· < ·))
    (ordered : start.Pairwise (Ahead occ)) (lower : ∀ y ∈ start, ∀ z ∈ l, y < z) :
    (l.foldl (fun l z => insertByOccupancy occ z l) start).Pairwise (Ahead occ) := by
  induction l generalizing start with
  | nil => exact ordered
  | cons z rest ih =>
    obtain ⟨first, others⟩ := List.pairwise_cons.mp ascending
    refine ih others (insertByOccupancy_ordered ordered fun y hy => lower y hy z List.mem_cons_self) fun y hy x hx => ?_
    rcases (mem_insertByOccupancy occ z start y).mp hy with rfl | old
    · exact first x hx
    · exact lower y old x (List.mem_cons_of_mem z hx)

variable {s : State} {t : Tenant} {k : Sector}

/-- R92: the candidates stand in descending order of occupancy, equal ones in ascending zone order. -/
theorem candidates_ordered : (candidates s t k).Pairwise (Ahead fun z => (s.cell z t).occupancy) :=
  foldl_insertByOccupancy_ordered ((List.pairwise_lt_finRange 48).filter _) .nil fun _ h => absurd h List.not_mem_nil

/-! ### The balancer's choice (R92) -/

/-- The answer found first in an ordered list is that of a member before which no member answers. -/
theorem findSome?_ordered {α β : Type} {r : α → α → Prop} (asymm : ∀ {x y}, r x y → ¬ r y x) {f : α → Option β}
    {l : List α} {b : β} (ordered : l.Pairwise r) (h : l.findSome? f = some b) :
    ∃ x ∈ l, f x = some b ∧ ∀ y ∈ l, r y x → f y = none := by
  obtain ⟨before, x, after, rfl, found, passed⟩ := List.findSome?_eq_some_iff.mp h
  refine ⟨x, by simp, found, fun y hy ahead => ?_⟩
  obtain ⟨_, ordered, _⟩ := List.pairwise_append.mp ordered
  obtain ⟨behind, _⟩ := List.pairwise_cons.mp ordered
  rcases List.mem_append.mp hy with early | late
  · exact passed y early
  · rcases List.mem_cons.mp late with rfl | late
    · exact absurd ahead (asymm ahead)
    · exact absurd ahead (asymm (behind y late))

variable {work : Vector Nat 6}

/-- R92: the winner is the eligible cell that stands first among those with a qualifying alternate, and its destination is
the first of these. -/
theorem winner_first {z : Zone} {a : Sector} (h : winner s t work k = some (z, a)) :
    eligible s t k z = true ∧ (s.cell z t).alternates.find? (qualifies s t work z) = some a ∧
      ∀ y, eligible s t k y = true → Ahead (fun x => (s.cell x t).occupancy) y z →
        (s.cell y t).alternates.find? (qualifies s t work y) = none := by
  obtain ⟨x, candidate, found, first⟩ := findSome?_ordered Ahead.asymm candidates_ordered h
  obtain ⟨b, chosen, pair⟩ := Option.map_eq_some_iff.mp found
  cases pair
  exact ⟨mem_candidates.mp candidate, chosen, fun y fits ahead =>
    Option.map_eq_none_iff.mp (first y (mem_candidates.mpr fits) ahead)⟩

theorem winner_none_iff :
    winner s t work k = none ↔
      ∀ y, eligible s t k y = true → (s.cell y t).alternates.find? (qualifies s t work y) = none := by
  simp only [winner, List.findSome?_eq_none_iff, Option.map_eq_none_iff, mem_candidates]

/-! ### A sector's turn (R91, R93) -/

theorem balanceSector_winner {z : Zone} {a : Sector} (below : k.val < (s.tenant t).sectorCount)
    (overloaded : isOverloaded s t k = true) (won : winner s t work k = some (z, a)) :
    balanceSector t (s, work) k = (propose t k z a s, moveWork work k a (s.cell z t).occupancy) := by
  simp only [balanceSector, below, overloaded, won, decide_true, Bool.and_self, if_true]

theorem balanceSector_rests
    (h : ¬ (k.val < (s.tenant t).sectorCount ∧ isOverloaded s t k = true) ∨ winner s t work k = none) :
    balanceSector t (s, work) k = (s, work) := by
  unfold balanceSector
  dsimp only
  split
  · next turn =>
    rw [Bool.and_eq_true, decide_eq_true_eq] at turn
    rw [h.resolve_left (not_not_intro turn)]
  · rfl

/-- R93: a proposal takes the hold-off from the tenant's settings, which a change of target leaves. -/
theorem propose_eq (t : Tenant) (k : Sector) (z : Zone) (a : Sector) (s : State) :
    propose t k z a s =
      ((setTarget z t (.sector a) .balancer s).modCell z t fun c =>
          { c with holdOff := (s.tenant t).spreading.holdOff }).modTenant t fun r =>
        { r with census := tmod r.census k fun c => { c with proposal := some (z, a) } } := by
  have kept : (setTarget z t (.sector a) .balancer s).tenant t = s.tenant t := by
    simp only [State.tenant, setTarget_tenants]
  rw [propose, kept]

end Sys2Proof.Machine

namespace Sys2Proof.Machine.Settled

/-- Settles O39: the overload states by the load's place at the two waters, the count of an entry (`saturated_some_iff`),
and the balancer's choice (`winner_first`, `winner_none_iff`) with the turn of a sector that has one and that has none. -/
theorem censusRules : Obligations.CensusRules := by
  refine ⟨⟨fun v load _ => ⟨nextOverload_belowHigh, nextOverload_atHigh, nextOverload_atLow, nextOverload_belowLow⟩,
    fun v before after m => saturated_some_iff⟩, fun s t work k => ⟨fun z a => winner_first, winner_none_iff.mp, ?turn,
      balanceSector_rests, rfl⟩⟩
  case turn =>
    rintro ⟨below, overloaded⟩ z a won
    rw [balanceSector_winner below overloaded won, propose_eq]
    rfl

end Sys2Proof.Machine.Settled

namespace Sys2Proof.Machine

/-! ### The member of an ordered list that is found first -/

/-- A search of an ordered list finds the member that fits and before which none fits. -/
theorem find?_ordered {α : Type} {r : α → α → Prop} (asymm : ∀ {x y}, r x y → ¬ r y x) {q : α → Bool} {l : List α}
    (ordered : l.Pairwise r) {x : α} :
    l.find? q = some x ↔ x ∈ l ∧ q x = true ∧ ∀ y ∈ l, r y x → q y = false := by
  induction l with
  | nil => simp
  | cons a rest ih =>
    obtain ⟨behind, ordered⟩ := List.pairwise_cons.mp ordered
    have irrefl : ¬ r x x := fun h => asymm h h
    cases fits : q a with
    | true =>
      rw [List.find?_cons_of_pos fits, Option.some.injEq]
      refine ⟨?_, ?_⟩
      · rintro rfl
        refine ⟨List.mem_cons_self, fits, fun y hy ahead => ?_⟩
        rcases List.mem_cons.mp hy with rfl | late
        · exact absurd ahead irrefl
        · exact absurd ahead (asymm (behind y late))
      · rintro ⟨mem, _, first⟩
        rcases List.mem_cons.mp mem with rfl | late
        · rfl
        · exact absurd (first a List.mem_cons_self (behind x late)) (by simp [fits])
    | false =>
      rw [List.find?_cons_of_neg (by simp [fits]), ih ordered]
      refine ⟨?_, ?_⟩
      · rintro ⟨mem, holds, first⟩
        exact ⟨List.mem_cons_of_mem _ mem, holds, List.forall_mem_cons.mpr ⟨fun _ => fits, first⟩⟩
      · rintro ⟨mem, holds, first⟩
        rcases List.mem_cons.mp mem with rfl | mem
        · exact absurd holds (by simp [fits])
        · exact ⟨mem, holds, fun y hy => first y (List.mem_cons_of_mem _ hy)⟩

/-! ### The zones bound to a port (R106) -/

section

variable {s t : State} {f : FPort} {p : Pos} {z : Zone}

theorem zoneAt_isSome_iff : (zoneAt s f p).isSome = true ↔ ∃ z, (s.zone z).binding = some ⟨f, p⟩ := by
  simp [zoneAt, allZones]

theorem zoneAt_eq_none_iff : zoneAt s f p = none ↔ ∀ z, (s.zone z).binding ≠ some ⟨f, p⟩ := by
  simp [zoneAt, allZones]

theorem binding_of_zoneAt (h : zoneAt s f p = some z) : (s.zone z).binding = some ⟨f, p⟩ := by
  simpa using List.find?_some h

/-- R153: with no binding held twice, the zone at a position is the one that is bound there. -/
theorem zoneAt_eq_some_iff (distinct : BindingsDistinct s) :
    zoneAt s f p = some z ↔ (s.zone z).binding = some ⟨f, p⟩ := by
  refine ⟨binding_of_zoneAt, fun bound => ?_⟩
  obtain ⟨y, at_y⟩ := Option.isSome_iff_exists.mp (zoneAt_isSome_iff.mpr ⟨z, bound⟩)
  rw [at_y, distinct.1 y z _ (binding_of_zoneAt at_y) bound]

theorem zoneAt_congr (h : t.zones = s.zones) (f : FPort) (p : Pos) : zoneAt t f p = zoneAt s f p := by
  simp only [zoneAt, State.zone, h]

theorem boundPositions_congr (h : t.zones = s.zones) (f : FPort) : boundPositions t f = boundPositions s f := by
  simp only [boundPositions, zoneAt_congr h]

theorem mem_boundPositions : p ∈ boundPositions s f ↔ ∃ z, (s.zone z).binding = some ⟨f, p⟩ := by
  have all : p ∈ allPositions := by
    revert p
    decide
  simp [boundPositions, all, zoneAt_isSome_iff]

theorem allPositions_ascending : allPositions.Pairwise (· < ·) := by decide

theorem boundPositions_ascending (s : State) (f : FPort) : (boundPositions s f).Pairwise (· < ·) :=
  allPositions_ascending.filter _

/-- The bound position that is found first is the lowest of those that fit. -/
theorem find?_boundPositions {fits : Pos → Prop} [DecidablePred fits] (bound : p ∈ boundPositions s f) (fit : fits p)
    (lowest : ∀ q ∈ boundPositions s f, fits q → p ≤ q) :
    ((boundPositions s f).find? fun q => decide (fits q)) = some p :=
  (find?_ordered (fun h => not_lt_of_gt h) (boundPositions_ascending s f)).mpr
    ⟨bound, decide_eq_true fit, fun q hq below => decide_eq_false fun fitsToo => not_le_of_gt below (lowest q hq fitsToo)⟩

/-- R114: the owed SET of the lowest position. -/
theorem lowestOwed_eq_some_iff (distinct : BindingsDistinct s) :
    lowestOwed s f = some z ↔
      (s.remote z).setOwed = true ∧ ∃ p, (s.zone z).binding = some ⟨f, p⟩ ∧
        ∀ y q, (s.zone y).binding = some ⟨f, q⟩ → q < p → (s.remote y).setOwed = false := by
  have every : ∀ p : Pos, p ∈ allPositions := by decide
  have search : lowestOwed s f = some z ↔
      ∃ p, allPositions.find? (fun p => (zoneAt s f p).any fun y => (s.remote y).setOwed) = some p ∧
        zoneAt s f p = some z := by
    rw [lowestOwed, List.find?_filterMap, Option.bind_eq_some_iff]
  simp only [search, find?_ordered (fun h => not_lt_of_gt h) allPositions_ascending, every, zoneAt_eq_some_iff distinct,
    true_and, forall_const]
  have owes : ∀ q, (zoneAt s f q).any (fun y => (s.remote y).setOwed) = false ↔
      ∀ y, (s.zone y).binding = some ⟨f, q⟩ → (s.remote y).setOwed = false := fun q => by
    simp only [← zoneAt_eq_some_iff distinct]
    cases zoneAt s f q <;> simp
  simp only [owes]
  constructor
  · rintro ⟨p, ⟨owed, lower⟩, bound⟩
    rw [(zoneAt_eq_some_iff distinct).mpr bound] at owed
    exact ⟨owed, p, bound, fun y q at_q below => lower q below y at_q⟩
  · rintro ⟨owed, p, bound, lower⟩
    refine ⟨p, ⟨?_, fun q below y at_q => lower y q at_q below⟩, bound⟩
    rw [(zoneAt_eq_some_iff distinct).mpr bound]
    exact owed

end

theorem lowestOwed_congr {s t : State} (zones : t.zones = s.zones)
    (owed : ∀ z, (t.remote z).setOwed = (s.remote z).setOwed) (f : FPort) : lowestOwed t f = lowestOwed s f := by
  have same : zoneAt t f = zoneAt s f := funext (zoneAt_congr zones f)
  simp only [lowestOwed, same, owed]

end Sys2Proof.Machine

namespace Sys2Proof.Machine

/-! ### The turn of a position (R106, R109, R110) -/

section

variable {s : State} {f : FPort} {pos p : Pos} {results : List (Pos × Bool)}

/-- R109, R110: the turn of a position, by the lock of its port and the frames of its gap. -/
theorem turnLink_eq (pos : Pos) (results : List (Pos × Bool)) (k : Nat) (l : LinkRec) :
    turnLink pos results k l =
      { l with
        sending := if l.locked = false then .nothing else if k = 0 then .poll else .queued
        round := some
          { pos := pos
            phase := if l.locked = false then .window false else if k = 0 then .poll else .gap k
            results := results } } := by
  cases k with
  | zero => cases locked : l.locked <;> simp [turnLink, locked]
  | succ k => cases locked : l.locked <;> simp [turnLink, locked]

theorem startTurn_eq (f : FPort) (pos : Pos) (results : List (Pos × Bool)) (k : Nat) (s : State) :
    startTurn f pos results k s = s.modLink f fun l =>
      { l with
        sending := if l.locked = false then .nothing else if k = 0 then .poll else .queued
        round := some
          { pos := pos
            phase := if l.locked = false then .window false else if k = 0 then .poll else .gap k
            results := results } } :=
  State.modLink_congr s f (turnLink_eq pos results k (s.link f))

/-- Log 16: the turn after a gap goes to the lowest bound position from the one chosen on. -/
theorem beginTurn_lowest (bound : p ∈ boundPositions s f) (above : pos ≤ p)
    (lowest : ∀ q ∈ boundPositions s f, pos ≤ q → p ≤ q) :
    beginTurn f pos results s = s.modLink f fun l =>
      { l with
        sending := if l.locked = false then .nothing else .poll
        round := some ⟨p, if l.locked = false then .window false else .poll, results⟩ } := by
  rw [beginTurn, find?_boundPositions bound above lowest]
  exact startTurn_eq f p results 0 s

/-- Log 16: with no bound position left the round ends where the gap does. -/
theorem beginTurn_none (below : ∀ p ∈ boundPositions s f, p < pos) :
    beginTurn f pos results s = endRound f results s := by
  have missed : ((boundPositions s f).find? fun q => decide (pos ≤ q)) = none :=
    List.find?_eq_none.mpr fun q hq => by simpa using below q hq
  rw [beginTurn, missed]

/-- R106, log 30: the turn after a close goes to the lowest bound position above the one polled. -/
theorem afterClose_next (bound : p ∈ boundPositions s f) (above : pos < p)
    (lowest : ∀ q ∈ boundPositions s f, pos < q → p ≤ q) :
    afterClose f pos results s = startTurn f p results (s.link f).queue.length s := by
  rw [afterClose, find?_boundPositions bound above lowest]

/-- R108: with no bound position above the one polled the round ends. -/
theorem afterClose_end (last : ∀ p ∈ boundPositions s f, p ≤ pos) :
    afterClose f pos results s = endRound f results s := by
  have missed : ((boundPositions s f).find? fun q => decide (pos < q)) = none :=
    List.find?_eq_none.mpr fun q hq => by simpa using last q hq
  rw [afterClose, missed]

/-- R106, R108 to R110: what follows a close, and the close of its event. -/
theorem finish_afterClose_goesOn {before b d : State} (work : ∀ u, hasWork b u = hasWork before u) (f : FPort) (pos : Pos)
    (results : List (Pos × Bool)) : RoundGoesOn before f pos results d (finish b (afterClose f pos results d)) := by
  refine ⟨fun next bound above lowest => ?_, fun last => ?_⟩
  · have turn : afterClose f pos results d = d.modLink f fun l =>
        { l with
          sending := if l.locked = false then .nothing else if l.queue = [] then .poll else .queued
          round := some
            { pos := next
              phase :=
                if l.locked = false then .window false else if l.queue = [] then .poll else .gap l.queue.length
              results := results } } := by
      rw [afterClose_next bound above lowest, startTurn_eq]
      exact State.modLink_congr d f (by simp only [List.length_eq_zero_iff])
    rw [← turn]
    exact finish_closed before b _ work
  · rw [afterClose_end last]
    exact finish_closed before b _ work

/-! ### The close of a reply window (R107, R108) -/

theorem deliver_miss {z : Zone} (distinct : BindingsDistinct s) (bound : (s.zone z).binding = some ⟨f, pos⟩) :
    deliver f pos none s = handleMiss z s := by
  rw [deliver, (zoneAt_eq_some_iff distinct).mpr bound]

theorem deliver_reply {z : Zone} (distinct : BindingsDistinct s) (bound : (s.zone z).binding = some ⟨f, pos⟩)
    (st : Status) : deliver f pos (some st) s = handleReply z st s := by
  rw [deliver, (zoneAt_eq_some_iff distinct).mpr bound]

theorem deliver_unbound (unbound : ∀ z, (s.zone z).binding ≠ some ⟨f, pos⟩) (reply : Option Status) :
    deliver f pos reply s = s := by
  rw [deliver, zoneAt_eq_none_iff.mpr unbound]

theorem closeWindow_open {a : Bool} (window : (s.link f).round = some ⟨pos, .window a, results⟩)
    (reply : Option Status) :
    closeWindow f reply s =
      finish s (afterClose f pos (results ++ [(pos, reply.isSome)]) (deliver f pos reply s)) := by
  rw [closeWindow, window]

theorem closeWindow_shut (shut : ∀ pos a results, (s.link f).round ≠ some ⟨pos, .window a, results⟩)
    (reply : Option Status) : closeWindow f reply s = s := by
  unfold closeWindow
  split
  · next pos a results window => exact absurd window (shut pos a results)
  · rfl

end

/-! ### Rounds that start (R105) -/

/-- R105: what the poll timer expiry makes of the link of a port with the bound positions `bound`. -/
def roundStart (bound : List Pos) (l : LinkRec) : LinkRec :=
  match l.round, bound with
  | none, pos :: _ =>
    { l with
      sending := if l.locked = false then .nothing else if l.sending = .queued then .queued else .poll
      round := some
        { pos := pos
          phase := if l.locked = false then .window false else if l.sending = .queued then .gap 1 else .poll
          results := [] } }
  | _, _ => l

theorem State.modLink_eq (s : State) (f : FPort) {g : LinkRec → LinkRec} (h : g (s.link f) = s.link f) :
    s.modLink f g = s := by
  have same : tmod s.links f g = s.links := by
    unfold tmod
    rw [show g (tget s.links f) = tget s.links f from h, tset_tget]
  simp only [State.modLink, same]

theorem startRound_eq (f : FPort) (s : State) : startRound f s = s.modLink f (roundStart (boundPositions s f)) := by
  unfold startRound
  split
  · next busy =>
    obtain ⟨r, round⟩ := Option.isSome_iff_exists.mp busy
    exact (State.modLink_eq s f (by simp only [roundStart, round])).symm
  · next idle =>
    have round : (s.link f).round = none := by simpa using idle
    split
    · next unbound => exact (State.modLink_eq s f (by simp only [roundStart, round, unbound])).symm
    · next pos rest bound =>
      rw [startTurn_eq]
      refine State.modLink_congr s f ?_
      simp only [roundStart, round, bound]
      by_cases queued : (s.link f).sending = .queued <;> simp [queued]

theorem foldl_startRound {l : List FPort} (once : l.Nodup) (s : State) :
    l.foldl (fun a f => startRound f a) s =
      { s with links := tmapIdx (fun f x => if f ∈ l then roundStart (boundPositions s f) x else x) s.links } := by
  induction l generalizing s with
  | nil =>
    have same : tmapIdx (fun (_ : FPort) (x : LinkRec) => x) s.links = s.links := table_ext _ _ fun _ => tget_tmapIdx _ _ _
    simp [same]
  | cons f rest ih =>
    obtain ⟨new, once⟩ := List.nodup_cons.mp once
    have bound : boundPositions (s.modLink f (roundStart (boundPositions s f))) = boundPositions s :=
      funext (boundPositions_congr rfl)
    rw [List.foldl_cons, startRound_eq, ih once, bound]
    have links :
        tmapIdx (fun h x => if h ∈ rest then roundStart (boundPositions s h) x else x)
            (tmod s.links f (roundStart (boundPositions s f))) =
          tmapIdx (fun h x => if h ∈ f :: rest then roundStart (boundPositions s h) x else x) s.links := by
      refine table_ext _ _ fun h => ?_
      rw [tget_tmapIdx, tget_tmapIdx, tget_tmod]
      by_cases e : f = h
      · subst e
        simp [new]
      · simp [e, Ne.symm e]
    exact congrArg (fun links => { s with links := links }) links

/-- R105, R118: the poll timer expiry starts a round on every port at once. -/
theorem pollExpiry_eq {s : State} (running : s.starting = false) (timer : s.pollTimer.running = true) :
    pollExpiry s =
      { s with
        pollTimer := ⟨true, s.pollInterval⟩
        links := tmapIdx (fun f l => roundStart (boundPositions s f) l) s.links } := by
  have all : ∀ f : FPort, f ∈ allFPorts := by decide
  simp only [pollExpiry, running, timer, Bool.not_true, Bool.or_self, Bool.false_eq_true, if_false]
  rw [foldl_startRound (by decide)]
  simp only [all, if_true]
  rfl

end Sys2Proof.Machine

namespace Sys2Proof.Machine.Settled

/-- Settles O41: the bound positions of a port, the rounds that start (`pollExpiry_eq`), and the end of a POLL. -/
theorem pollRound : Obligations.PollRound := by
  intro s
  refine ⟨fun f => ⟨fun p => mem_boundPositions, boundPositions_ascending s f⟩, fun stopped => ?_, fun running timer => ?_,
    fun f pos results running sending round => ?_⟩
  · refine congrArg Host.Outcome.next (if_pos ?_)
    rcases stopped with h | h <;> simp [h]
  · refine (congrArg Host.Outcome.next (pollExpiry_eq running timer)).trans ?_
    rfl
  · refine congrArg Host.Outcome.next ?_
    simp only [pollEnd, round, sending, running, Bool.false_eq_true, if_false]
    rfl

/-- Settles O42: the open window closes as a miss, and the round goes on (`finish_afterClose_goesOn`). -/
theorem replyTimer : Obligations.ReplyTimer := by
  intro s f distinct
  refine ⟨fun idle => ?_, fun pos a results running window => ⟨replyExpiry f s, rfl, ?_⟩⟩
  · refine congrArg Host.Outcome.next ?_
    rcases idle with starting | shut
    · exact if_pos starting
    · rw [replyExpiry, closeWindow_shut shut, ite_self]
  · have closed : replyExpiry f s = finish s (afterClose f pos (results ++ [(pos, false)]) (deliver f pos none s)) := by
      rw [replyExpiry, if_neg (by simp [running]), closeWindow_open window]
      rfl
    have goesOn := finish_afterClose_goesOn (before := s) (d := deliver f pos none s) (fun _ => rfl) f pos
      (results ++ [(pos, false)])
    rw [← closed] at goesOn
    exact ⟨fun z bound => deliver_miss distinct bound ▸ goesOn, fun unbound => by rwa [deliver_unbound unbound] at goesOn⟩

end Sys2Proof.Machine.Settled

namespace Sys2Proof.Machine

/-! ### The receiver (R103, R104) -/

/-- R103: a port whose receiver is in the middle of a frame, of which it has taken the octets `os`. -/
def collectingAt (f : FPort) (os : List Byte) (s : State) : State :=
  s.modLink f fun l => { l with rx := .collecting os, afterC3 := false }

/-- R103: a port whose receiver has left a frame. -/
def seekingAt (f : FPort) (s : State) : State := s.modLink f fun l => { l with rx := .seeking, afterC3 := false }

section

variable {s : State} {f : FPort}

@[simp] theorem collectingAt_link (f : FPort) (os : List Byte) (s : State) :
    (collectingAt f os s).link f = { s.link f with rx := .collecting os, afterC3 := false } :=
  State.link_modLink_same s f _

/-- R100: a HUNTING port, and one in start-up, takes no character. -/
theorem takeChars_deaf (deaf : s.starting = true ∨ (s.link f).locked = false) (cs : List LineChar) :
    takeChars f cs s = s := by
  have one : ∀ c, takeChar f s c = s := fun c => if_pos (by rcases deaf with h | h <;> simp [h])
  unfold takeChars
  induction cs with
  | nil => rfl
  | cons c rest ih => rw [List.foldl_cons, one, ih]

section

variable (running : s.starting = false) (locked : (s.link f).locked = true)
include running locked

theorem takeChar_framing (b : Byte) (passed : (s.link f).afterC3 = false ∨ b ≠ 0x5A) :
    takeChar f s (.framing b) = s.modLink f fun l => { l with afterC3 := b == 0xC3 } := by
  have no : ¬ ((s.link f).afterC3 && b == 0x5A) = true := by
    rw [Bool.and_eq_true, beq_iff_eq]
    rintro ⟨after, pattern⟩
    rcases passed with h | h
    · exact absurd (h.symm.trans after) (by decide)
    · exact h pattern
  simp only [takeChar, running, locked, no, Bool.not_true, Bool.or_self, Bool.false_eq_true, if_false]

theorem takeChar_data (b : Byte) :
    takeChar f s (.data b) = takeDataOctet f b (s.modLink f fun l => { l with afterC3 := false }) := by
  simp only [takeChar, running, locked, Bool.not_true, Bool.or_self, Bool.false_eq_true, if_false]

/-- R101, R103: a start pattern begins a frame, whatever the receiver did before it. -/
theorem takeChars_startPattern : takeChars f startPattern s = collectingAt f [] s := by
  have first := takeChar_framing running locked 0xC3 (.inr (by decide))
  simp only [takeChars, startPattern, List.foldl_cons, List.foldl_nil, first]
  simp [takeChar, running, locked, collectingAt]

theorem takeChar_length (n : Byte) (low : 5 ≤ n.toNat) (high : n.toNat ≤ 64) :
    takeChar f (collectingAt f [] s) (.data n) = collectingAt f [n] s := by
  have fits : badLengthOctet n = false := by simp [badLengthOctet, low, high]
  rw [takeChar_data (by exact running) (by simpa using locked)]
  simp [takeDataOctet, collectingAt, fits]

theorem takeChar_badLength (n : Byte) (bad : n.toNat < 5 ∨ 64 < n.toNat) (rx : (s.link f).rx = .collecting []) :
    takeChar f s (.data n) = seekingAt f s := by
  have unfit : badLengthOctet n = true := by simpa [badLengthOctet] using bad
  rw [takeChar_data running locked]
  simp [takeDataOctet, rx, unfit, seekingAt]

theorem takeChar_octet (n b : Byte) (os : List Byte) :
    takeChar f (collectingAt f (n :: os) s) (.data b) =
      if os.length + 2 = n.toNat then frameDone f (n :: os ++ [b]) (collectingAt f (n :: os) s)
      else collectingAt f (n :: os ++ [b]) s := by
  rw [takeChar_data (by exact running) (by simpa using locked)]
  simp [takeDataOctet, collectingAt]

/-- R103: the rest of a frame, octet by octet, up to the length that its first octet gives. -/
theorem takeChars_rest (n : Byte) (os got : List Byte) (more : os ≠ []) (whole : got.length + 1 + os.length = n.toNat) :
    takeChars f (os.map .data) (collectingAt f (n :: got) s) =
      frameDone f (n :: got ++ os) (collectingAt f (n :: got ++ os.dropLast) s) := by
  induction os generalizing got with
  | nil => exact absurd rfl more
  | cons b rest ih =>
    rw [List.length_cons] at whole
    have first := takeChar_octet running locked n b got
    cases rest with
    | nil =>
      rw [if_pos (by simpa using whole)] at first
      simpa [takeChars] using first
    | cons c rest =>
      rw [if_neg (by simp at whole; omega)] at first
      have next := ih (got ++ [b]) (by simp) (by simpa [Nat.add_assoc, Nat.add_comm, Nat.add_left_comm] using whole)
      simpa [takeChars, first] using next

/-- R101, R103: a whole frame, from its start pattern on. -/
theorem takeChars_frame (os : List Byte) (whole : os.length = (os.headD 0).toNat) (low : 5 ≤ os.length)
    (high : os.length ≤ 64) :
    takeChars f (startPattern ++ os.map .data) s = frameDone f os (collectingAt f os.dropLast s) := by
  cases os with
  | nil => simp at low
  | cons n rest =>
    have length : rest.length + 1 = n.toNat := whole
    have more : rest ≠ [] := by
      rintro rfl
      simp at low
    have start := takeChars_startPattern running locked
    have first := takeChar_length running locked n (length ▸ low) (length ▸ high)
    have next := takeChars_rest running locked n rest [] more (by simpa [Nat.add_comm] using length)
    simp only [takeChars] at start next ⊢
    rw [List.foldl_append, start, List.map_cons, List.foldl_cons, first, next]
    simp [List.dropLast_cons_of_ne_nil more]

end

/-! ### A whole frame (R104) -/

theorem octet_posNumber (p : Pos) (b : Byte) : octet (posNumber p) = b ↔ b.toNat = p.val + 1 := by
  have small : (octet (posNumber p)).toNat = p.val + 1 := by
    simp only [octet, posNumber, BitVec.toNat_ofNat]
    omega
  rw [← small, BitVec.toNat_inj, eq_comm]

/-- R104: the checks that a GOOD frame passes. -/
theorem frameOutcome_good_iff {l : LinkRec} {os : List Byte} :
    frameOutcome l os = .good ↔
      crcField os = (crc16 (coveredOctets os)).toNat ∧
        (replyTimer l).map (fun p => octet (posNumber p)) = some (os.getD 1 0) ∧ (os.getD 2 0 = 0x81 → os.length = 14) := by
  unfold frameOutcome
  split
  · next crc => exact ⟨nofun, fun ⟨right, _⟩ => absurd right crc⟩
  · next crc =>
    split
    · next address => exact ⟨nofun, fun ⟨_, right, _⟩ => absurd right address⟩
    · next address =>
      split
      · next length => exact ⟨nofun, fun ⟨_, _, right⟩ => absurd (right length.1) length.2⟩
      · next length =>
        exact ⟨fun _ => ⟨not_not.mp crc, not_not.mp address, fun kind => by_contra fun wrong => length ⟨kind, wrong⟩⟩,
          fun _ => rfl⟩

/-- R104: a frame is a reply when a window that its POLL opened finds it whole, a STATUS, and from the polled position. -/
theorem replyIn_window {l : LinkRec} {pos : Pos} {results : List (Pos × Bool)}
    (window : l.round = some ⟨pos, .window true, results⟩) (os : List Byte) :
    replyIn l os =
      if crcField os = (crc16 (coveredOctets os)).toNat ∧ (os.getD 1 0).toNat = pos.val + 1 ∧ os.getD 2 0 = 0x81 ∧
          os.length = 14 then
        some (statusFields os)
      else none := by
  have timer : replyTimer l = some pos := by rw [replyTimer, window]
  have answers : answerable l = true := by rw [answerable, window]
  refine if_congr ?_ rfl rfl
  rw [frameOutcome_good_iff, answers, timer, Option.map_some, Option.some.injEq, octet_posNumber]
  constructor
  · rintro ⟨⟨crc, address, length⟩, kind, _⟩
    exact ⟨crc, address, kind, length kind⟩
  · rintro ⟨crc, address, kind, length⟩
    exact ⟨⟨crc, address, fun _ => length⟩, kind, rfl⟩

/-- R104, log 15: with no window that its POLL opened, no frame is a reply. -/
theorem replyIn_closed {l : LinkRec} (closed : ∀ pos results, l.round ≠ some ⟨pos, .window true, results⟩)
    (os : List Byte) : replyIn l os = none := by
  have shut : answerable l = false := by
    unfold answerable
    split
    · next pos a results window =>
      cases a with
      | true => exact absurd window (closed pos results)
      | false => rfl
    · rfl
  exact if_neg (by simp [shut])

theorem seekingAt_of_collectingAt (f : FPort) (got : List Byte) (s : State) :
    (collectingAt f got s).modLink f (fun l => { l with rx := .seeking }) = seekingAt f s :=
  State.modLink_modLink s f _ _

/-- What a reply is depends on the round of the link and the octets alone. -/
theorem replyIn_collectingAt (os got : List Byte) : replyIn ((collectingAt f got s).link f) os = replyIn (s.link f) os := by
  rw [collectingAt_link]
  rfl

/-- R104: a complete frame leaves the receiver SEEKING, and as a reply closes the window. -/
theorem frameDone_reply {os : List Byte} {st : Status} (reply : replyIn (s.link f) os = some st) (got : List Byte) :
    frameDone f os (collectingAt f got s) = closeWindow f (some st) (seekingAt f s) := by
  rw [frameDone, seekingAt_of_collectingAt, replyIn_collectingAt, reply]

theorem frameDone_none {os : List Byte} (noReply : replyIn (s.link f) os = none) (got : List Byte) :
    frameDone f os (collectingAt f got s) = seekingAt f s := by
  rw [frameDone, seekingAt_of_collectingAt, replyIn_collectingAt, noReply]

/-- 11.1, R179: the fields of a STATUS, octet by octet. -/
theorem statusFields_octets (n a k flags temp o1 o0 l1 l0 mute c01 c23 x y : Byte) :
    let st := statusFields [n, a, k, flags, temp, o1, o0, l1, l0, mute, c01, c23, x, y]
    st.flags = flags ∧ st.temp = temp ∧ st.output = be16 o1 o0 ∧ st.applied = be16 l1 l0 ∧ st.mute = mute ∧
      (tget st.codes 0).val = c01.toNat / 16 ∧ (tget st.codes 1).val = c01.toNat % 16 ∧
      (tget st.codes 2).val = c23.toNat / 16 ∧ (tget st.codes 3).val = c23.toNat % 16 := by
  have high : ∀ b : Byte, b.toNat / 16 % 16 = b.toNat / 16 := fun b => by omega
  exact ⟨rfl, rfl, rfl, rfl, rfl, high c01, rfl, high c23, rfl⟩

end

end Sys2Proof.Machine

namespace Sys2Proof.Machine.Settled

/-- Settles O43: a whole frame comes to `frameDone` (`takeChars_frame`), which takes it as a reply or passes it over
(`replyIn_window`, `replyIn_closed`). -/
theorem reception : Obligations.Reception := by
  refine ⟨fun s f os distinct running locked whole low high => ?_, statusFields_octets, fun s f => ⟨fun deaf => ?_,
    fun running locked => ⟨?_, fun n bad rx => ?_, fun n rx => ?_, fun b passed => ?_⟩⟩⟩
  · intro chars passed crc good
    have run : exec (.frameReceived f chars) s = .next (frameDone f os (collectingAt f os.dropLast s)) :=
      congrArg Host.Outcome.next (takeChars_frame running locked os whole low high)
    refine ⟨fun pos results window isGood => ⟨_, run, ?_⟩, fun noReply => ?_⟩
    · have goesOn : RoundGoesOn s f pos (results ++ [(pos, true)]) (deliver f pos (some (statusFields os)) passed)
          (frameDone f os (collectingAt f os.dropLast s)) := by
        rw [frameDone_reply ((replyIn_window window os).trans (if_pos isGood)),
          closeWindow_open (by rw [seekingAt, State.link_modLink_same]; exact window)]
        exact finish_afterClose_goesOn (fun _ => rfl) f pos _
      have apart : BindingsDistinct passed := distinct
      exact ⟨fun z bound => deliver_reply apart bound _ ▸ goesOn, fun unbound => by
        rwa [deliver_unbound (s := passed) unbound] at goesOn⟩
    · refine run.trans (congrArg Host.Outcome.next (frameDone_none ?_ _))
      by_cases window : ∃ pos results, (s.link f).round = some ⟨pos, .window true, results⟩
      · obtain ⟨pos, results, window⟩ := window
        exact (replyIn_window window os).trans (if_neg (noReply pos results window))
      · exact replyIn_closed (fun pos results h => window ⟨pos, results, h⟩) os
  · have all := fun cs => congrArg (Host.Outcome.next (φ := Fault) (ρ := Refusal)) (takeChars_deaf deaf cs)
    exact ⟨all, all _, fun n => all [.data n]⟩
  · exact congrArg Host.Outcome.next (takeChars_startPattern running locked)
  · exact congrArg Host.Outcome.next (takeChar_badLength running locked n bad rx)
  · refine congrArg Host.Outcome.next ((takeChar_data running locked n).trans ?_)
    simp [takeDataOctet, rx]
  · exact congrArg Host.Outcome.next (takeChar_framing running locked b passed)

end Sys2Proof.Machine.Settled

namespace Sys2Proof.Machine

/-! ### A queued frame that has gone out (R110, R111, R114) -/

section

variable {s : State} {f : FPort}

theorem startQueued_idle (idle : (s.link f).locked = false ∨ (s.link f).queue = []) : startQueued f s = s := by
  refine if_neg ?_
  rcases idle with h | h <;> simp [h]

/-- R110: what the transmitter of an idle LOCKED port starts, by its queue. -/
theorem startQueued_modLink (f : FPort) (s : State) :
    startQueued f s = s.modLink f fun l =>
      { l with
        sending :=
          if s.starting = false ∧ l.locked = true ∧ l.sending = .nothing ∧ l.round = none ∧ l.queue ≠ [] then .queued
          else l.sending } := by
  by_cases empty : (s.link f).queue = []
  · rw [startQueued_idle (.inr empty)]
    refine (State.modLink_eq s f ?_).symm
    rw [if_neg fun ⟨_, _, _, _, more⟩ => more empty]
  · rw [startQueued_of_cons s f empty]
    exact State.modLink_congr s f (by simp [empty])

/-- What the SETs that passes owe leave of a link: its round and its lock. -/
theorem link_of_outsidePasses {t : State} (h : outsidePasses t = outsidePasses s) (f : FPort) :
    (t.link f).round = (s.link f).round ∧ (t.link f).locked = (s.link f).locked := by
  have link : ∀ x, (outsidePasses x).link f = { x.link f with queue := [], sending := .nothing } := fun x => tget_tmapIdx _ _ _
  have same : { t.link f with queue := [], sending := .nothing } = { s.link f with queue := [], sending := .nothing } := by
    rw [← link, ← link, h]
  obtain ⟨_, locked, _, _, _, _, round, _⟩ := LinkRec.mk.inj same
  exact ⟨round, locked⟩

/-- R114: an owed SET enters for the zone that is the lowest owed one, and with none nothing changes. -/
theorem takeOwed_of_lowest {owed : Option Zone} (lowest : lowestOwed s f = owed) :
    takeOwed f s = owed.elim s fun z => queueSet z s := by
  cases owed with
  | none => simp only [takeOwed, lowest, Option.elim_none]
  | some z => simp only [takeOwed, lowest, Option.elim_some]

theorem outsidePasses_takeOwed (f : FPort) (s : State) : outsidePasses (takeOwed f s) = outsidePasses s := by
  unfold takeOwed
  split
  · exact outsidePasses_queueSet _ s
  · rfl

theorem takeOwed_zones (f : FPort) (s : State) : (takeOwed f s).zones = s.zones := by
  unfold takeOwed
  split
  · exact queueSet_zones _ s
  · rfl

/-- R102, 11.1: the characters of a SET. -/
theorem queuedChars_set (pos : Pos) (limit : Nat) (mute : Bool) :
    queuedChars (.set pos limit mute) =
      let body := [octet (pos.val + 1), 0x02, octet (limit / 256), octet limit, if mute = true then 1 else 0]
      [.framing 0xC3, .framing 0x5A] ++ (8 :: body ++ octets16 (crc16 body).toNat).map .data := by
  cases mute <;> rfl

theorem reportSet_bound {pos : Pos} {z : Zone} (distinct : BindingsDistinct s) (bound : (s.zone z).binding = some ⟨f, pos⟩)
    (limit : Nat) (mute : Bool) :
    reportSet f pos limit mute s = s.modRemote z fun r => { r with sentLimit := limit, sentMute := mute } := by
  rw [reportSet, (zoneAt_eq_some_iff distinct).mpr bound]

theorem reportSet_unbound {pos : Pos} (unbound : ∀ z, (s.zone z).binding ≠ some ⟨f, pos⟩) (limit : Nat) (mute : Bool) :
    reportSet f pos limit mute s = s := by
  rw [reportSet, zoneAt_eq_none_iff.mpr unbound]

/-- R111: a report changes the last-sent values of remote records alone. -/
theorem reportFrame_frame (f : FPort) (fr : Frame) (s : State) :
    (reportFrame f fr s).zones = s.zones ∧ (reportFrame f fr s).links = s.links ∧
      ∀ z, ((reportFrame f fr s).remote z).setOwed = (s.remote z).setOwed := by
  cases fr with
  | chainMute => exact ⟨rfl, rfl, fun _ => rfl⟩
  | set pos limit mute =>
    simp only [reportFrame, reportSet]
    split
    · next y _ =>
      refine ⟨rfl, rfl, fun z => ?_⟩
      by_cases e : y = z
      · rw [e, State.remote_modRemote_same]
      · rw [State.remote_modRemote_ne _ _ _ _ e]
    · exact ⟨rfl, rfl, fun _ => rfl⟩

theorem frameEnd_queued {fr : Frame} {rest : List Frame} (running : s.starting = false)
    (sending : (s.link f).sending = .queued) (queue : (s.link f).queue = fr :: rest) :
    frameEnd f s =
      sendNext f (takeOwed f (reportFrame f fr
        (s.modLink f fun l => { l with queue := rest, sending := .nothing, lineOut := queuedChars fr }))) := by
  simp only [frameEnd, sending, queue, running, Bool.false_eq_true, if_false]

theorem sendNext_queue (outside : ∀ pos n results, (s.link f).round ≠ some ⟨pos, .gap n, results⟩) :
    sendNext f s = startQueued f s := by
  unfold sendNext
  split
  · next pos n results gap => exact absurd gap (outside pos n results)
  · rfl

section

variable {pos : Pos} {n : Nat} {results : List (Pos × Bool)} (gap : (s.link f).round = some ⟨pos, .gap n, results⟩)
include gap

/-- R110: a gap with frames left goes on. -/
theorem sendNext_gap (more : 1 < n) (locked : (s.link f).locked = true) :
    sendNext f s = s.modLink f fun l => { l with sending := .queued, round := some ⟨pos, .gap (n - 1), results⟩ } := by
  have left : n - 1 ≠ 0 := by omega
  simp only [sendNext, gap, more, locked, and_self, if_true]
  rw [startTurn_eq]
  exact State.modLink_congr s f (by simp [locked, left])

theorem sendNext_turn (last : n ≤ 1 ∨ (s.link f).locked = false) : sendNext f s = beginTurn f pos results s := by
  have ends : ¬ (1 < n ∧ (s.link f).locked = true) := by
    rintro ⟨more, locked⟩
    rcases last with h | h
    · omega
    · exact absurd (h.symm.trans locked) (by decide)
  simp only [sendNext, gap, ends, if_false]

end

end

/-! ### A loss of lock (R100, R109) -/

section

variable {s : State} {f : FPort}

theorem roundAtLoss_gap {pos : Pos} {n : Nat} {results : List (Pos × Bool)}
    (gap : (s.link f).round = some ⟨pos, .gap n, results⟩) : roundAtLoss f s = beginTurn f pos results s := by
  rw [roundAtLoss, gap]

theorem roundAtLoss_outside (outside : ∀ pos n results, (s.link f).round ≠ some ⟨pos, .gap n, results⟩) :
    roundAtLoss f s = s.modLink f fun l => { l with round := l.round.map fun r => { r with phase := .window false } } := by
  unfold roundAtLoss
  split
  · next pos n results gap => exact absurd gap (outside pos n results)
  · next r _ round => exact State.modLink_congr s f (by rw [round, Option.map_some])
  · next round => exact (State.modLink_eq s f (by rw [round, Option.map_none, ← round])).symm

end

/-! ### A round end and the links (R136) -/

theorem appendLog_links (e : Entry) (s : State) : (appendLog e s).links = s.links := by rw [appendLog_eq]

theorem roundEnd_links (f : FPort) (results : List (Pos × Bool)) (s : State) : (roundEnd f results s).links = s.links := by
  have logs : ∀ ps x, (logLost f ps x).links = x.links := fun ps x =>
    foldl_keeps State.links _ (fun a p => by split <;> simp [logZone, appendLog_links]) ps x
  have marks : ∀ ps x, (markBehind f ps x).links = x.links := fun ps x =>
    foldl_keeps State.links _ (fun a p => by split <;> rfl) ps x
  have clears : ∀ x, (clearLost f x).links = x.links := fun x =>
    foldl_keeps State.links _ (fun a p => by split <;> rfl) _ x
  have group : (groupEntries f results s).links = s.links := by
    unfold groupEntries
    dsimp only
    split
    · rfl
    · split
      · exact appendLog_links _ _
      · split
        · split
          · rw [marks, appendLog_links]
          · exact logs _ _
        · exact logs _ _
  rw [roundEnd, clears, logs, group]

/-- R108, R110: a round that ends on a HUNTING port starts no frame. -/
theorem endRound_hunting {s : State} {f : FPort} (hunting : (s.link f).locked = false) (results : List (Pos × Bool)) :
    endRound f results s = (roundEnd f results s).modLink f fun l => { l with round := none } := by
  have link : (roundEnd f results s).link f = s.link f := congrArg (fun v => tget v f) (roundEnd_links f results s)
  refine startQueued_idle (.inl ?_)
  rw [State.link_modLink_same, link]
  exact hunting

end Sys2Proof.Machine

namespace Sys2Proof.Machine.Settled

/-- Settles O44: the report, the owed SET (`lowestOwed_eq_some_iff`), and what the transmitter goes on with
(`sendNext_queue`, `sendNext_gap`, `sendNext_turn`). -/
theorem frameTransmitted : Obligations.FrameTransmitted := by
  intro s f distinct
  refine ⟨fun z => lowestOwed_eq_some_iff distinct, fun fr rest running sending queue => ?_⟩
  intro chars sent
  have sent_eq : sent = s.modLink f fun l => { l with queue := rest, sending := .nothing, lineOut := queuedChars fr } := by
    cases fr with
    | set pos limit mute =>
      rw [queuedChars_set]
    | chainMute => rfl
  have apart : BindingsDistinct sent := distinct
  refine ⟨reportFrame f fr sent, ?_, ?_, ?_⟩
  · rintro rfl
    rfl
  · rintro pos limit mute rfl
    exact ⟨fun z bound => reportSet_bound apart bound limit mute,
      fun unbound => reportSet_unbound (s := sent) unbound limit mute⟩
  · intro filled
    obtain ⟨zones, links, owed⟩ := reportFrame_frame f fr sent
    have filled_eq : filled = takeOwed f (reportFrame f fr sent) := by
      have same : lowestOwed (reportFrame f fr sent) f = lowestOwed s f := lowestOwed_congr (s := s) zones owed f
      unfold filled
      split
      · next z owing => exact (takeOwed_of_lowest (same.trans owing)).symm
      · next nothing => exact (takeOwed_of_lowest (same.trans nothing)).symm
    have run : exec (.frameTransmitted f) s = .next (sendNext f filled) := by
      refine congrArg Host.Outcome.next ?_
      rw [filled_eq, sent_eq]
      exact frameEnd_queued running sending queue
    have link : (filled.link f).round = (s.link f).round ∧ (filled.link f).locked = (s.link f).locked := by
      rw [filled_eq]
      obtain ⟨round, locked⟩ := link_of_outsidePasses (outsidePasses_takeOwed f (reportFrame f fr sent)) f
      have kept : (reportFrame f fr sent).link f = sent.link f := congrArg (fun v => tget v f) links
      have start : sent.link f = _ := State.link_modLink_same s f _
      rw [kept, start] at round locked
      exact ⟨round, locked⟩
    have bound : boundPositions filled f = boundPositions s f :=
      boundPositions_congr (by rw [filled_eq, takeOwed_zones, zones]; rfl) f
    obtain ⟨round, lock⟩ := link
    rw [run, ← round, ← lock, ← bound]
    refine ⟨fun outside => congrArg _ (sendNext_queue outside), fun pos n results gap =>
      ⟨fun more locked => congrArg _ (sendNext_gap gap more locked), fun last => ?_⟩⟩
    rw [sendNext_turn gap last]
    exact ⟨fun p mem above lowest => congrArg _ (beginTurn_lowest mem above lowest), fun below =>
      congrArg _ (beginTurn_none below)⟩

/-- Settles O45: a loss of lock by the phase of the round, and a return of lock. -/
theorem linkLock : Obligations.LinkLock := by
  intro s f
  refine ⟨fun deaf => ?_, fun running locked => ?_, fun deaf => ?_, fun running hunting => ?_⟩
  · refine congrArg Host.Outcome.next (if_pos ?_)
    rcases deaf with h | h <;> simp [h]
  · intro cut
    have run : exec (.lossOfLock f) s = .next (roundAtLoss f (cut (s.link f).round)) := by
      refine congrArg Host.Outcome.next ((if_neg (by simp [running, locked])).trans ?_)
      rw [State.modLink_modLink]
      exact congrArg _ (State.modLink_congr s f rfl)
    have link : ∀ round, (cut round).link f = { s.link f with
        lockCond := false, locked := false, rx := .seeking, afterC3 := false, sending := .nothing, round := round } :=
      fun _ => State.link_modLink_same s f _
    rw [run]
    refine ⟨fun outside => congrArg _ ?_, fun pos n results gap => ⟨fun p mem above lowest => congrArg _ ?_,
      fun below => congrArg _ ?_⟩⟩
    · rw [roundAtLoss_outside (by rw [link]; exact outside)]
      exact State.modLink_modLink s f _ _
    · rw [roundAtLoss_gap (by rw [link]; exact gap), beginTurn_lowest (s := cut _) mem above lowest]
      exact State.modLink_modLink s f _ _
    · rw [roundAtLoss_gap (by rw [link]; exact gap), beginTurn_none (s := cut _) below,
        endRound_hunting (by rw [link])]
  · refine congrArg Host.Outcome.next (if_pos ?_)
    rcases deaf with h | h <;> simp [h]
  · refine congrArg Host.Outcome.next ((if_neg (by simp [running, hunting])).trans ?_)
    rw [State.modLink_modLink, startQueued_modLink, State.modLink_modLink]
    exact State.modLink_congr s f (by simp [running])

end Sys2Proof.Machine.Settled

namespace Sys2Proof.Machine

/-! ### The pages that start-up loads, page by page (R160) -/

theorem distinctBindings_iff {l : List Binding} : distinctBindings l = true ↔ l.Nodup := by
  refine ⟨distinctBindings_nodup, fun once => ?_⟩
  induction l with
  | nil => rfl
  | cons b rest ih =>
    obtain ⟨new, once⟩ := List.nodup_cons.mp once
    simp [distinctBindings, new, ih once]

theorem loadable_eq_some_iff {loaded : List Binding} {pg : Page} {rs : List StoreRecord} :
    loadable loaded pg = some rs ↔
      pg.integrity = crc16 pg.octets.toList ∧ recordsOf (pg.octets.toList.take 32) = some rs ∧ (bindingsOf rs).Nodup ∧
        ∀ b ∈ bindingsOf rs, b ∉ loaded := by
  have check : ∀ rs, (distinctBindings (bindingsOf rs) && !(bindingsOf rs).any fun b => loaded.contains b) = true ↔
      (bindingsOf rs).Nodup ∧ ∀ b ∈ bindingsOf rs, b ∉ loaded := fun rs => by
    simp [distinctBindings_iff]
  have sound : pageValid pg = true ↔ pg.integrity = crc16 pg.octets.toList := beq_iff_eq
  rw [← sound]
  unfold loadable
  split
  · next valid =>
    split
    · next rs' held =>
      rw [held, Option.some.injEq]
      split
      · next fits =>
        rw [Option.some.injEq]
        exact ⟨by rintro rfl; exact ⟨valid, rfl, (check rs').mp fits⟩, fun ⟨_, e, _⟩ => e⟩
      · next unfit => exact ⟨nofun, fun ⟨_, e, fits⟩ => absurd ((check rs').mpr (e ▸ fits)) unfit⟩
    · next held => exact ⟨nofun, fun ⟨_, e, _⟩ => absurd (held.symm.trans e) nofun⟩
  · next invalid => exact ⟨nofun, fun ⟨valid, _⟩ => absurd valid invalid⟩

theorem loadPages_cons (pages : Vector Page 6) (p : PageNo) (rest : List PageNo) (loaded : List Binding) :
    loadPages pages (p :: rest) loaded =
      (p, loadable loaded (tget pages p)) ::
        loadPages pages rest (loaded ++ bindingsOf ((loadable loaded (tget pages p)).getD [])) := by
  rw [loadPages]
  cases loadable loaded (tget pages p) with
  | some rs => rfl
  | none => simp [bindingsOf]

theorem loadPages_pages (pages : Vector Page 6) (ps : List PageNo) (loaded : List Binding) :
    (loadPages pages ps loaded).map Prod.fst = ps := by
  induction ps generalizing loaded with
  | nil => rfl
  | cons p rest ih => rw [loadPages_cons, List.map_cons, ih]

/-- R160: a page loads what `loadable` takes, with the bindings of the lower pages that load. -/
theorem mem_loadPages_iff {pages : Vector Page 6} {ps : List PageNo} (ascending : ps.Pairwise (· < ·))
    (loaded : List Binding) {p : PageNo} (mem : p ∈ ps) {rs : List StoreRecord} :
    (p, some rs) ∈ loadPages pages ps loaded ↔
      (tget pages p).integrity = crc16 (tget pages p).octets.toList ∧
        recordsOf ((tget pages p).octets.toList.take 32) = some rs ∧ (bindingsOf rs).Nodup ∧
        ∀ b ∈ bindingsOf rs, b ∉ loaded ∧
          ∀ q rs', (q, some rs') ∈ loadPages pages ps loaded → q < p → b ∉ bindingsOf rs' := by
  induction ps generalizing loaded with
  | nil => exact absurd mem (by simp)
  | cons a rest ih =>
    obtain ⟨behind, ascending⟩ := List.pairwise_cons.mp ascending
    have page : ∀ {l q o}, (q, o) ∈ loadPages pages rest l → q ∈ rest := fun {l q o} h =>
      loadPages_pages pages rest l ▸ List.mem_map_of_mem (f := Prod.fst) h
    rw [loadPages_cons]
    rcases List.mem_cons.mp mem with rfl | late
    · have lowest : ∀ q rs', (q, some rs') ∈ loadPages pages (p :: rest) loaded → ¬ q < p := fun q rs' h below => by
        rw [loadPages_cons] at h
        rcases List.mem_cons.mp h with e | later
        · exact absurd (Prod.mk.inj e).1 (ne_of_lt below)
        · exact absurd (behind q (page later)) (lt_asymm below)
      rw [loadPages_cons] at lowest
      have here : (p, some rs) ∈ (p, loadable loaded (tget pages p)) ::
            loadPages pages rest (loaded ++ bindingsOf ((loadable loaded (tget pages p)).getD [])) ↔
          loadable loaded (tget pages p) = some rs := by
        refine ⟨fun h => ?_, fun e => e ▸ List.mem_cons_self⟩
        rcases List.mem_cons.mp h with e | later
        · exact (Prod.mk.inj e).2.symm
        · exact absurd (behind p (page later)) (lt_irrefl p)
      rw [here, loadable_eq_some_iff]
      refine and_congr_right fun _ => and_congr_right fun _ => and_congr_right fun _ => forall₂_congr fun b _ => ?_
      exact ⟨fun new => ⟨new, fun q rs' h below => absurd below (lowest q rs' h)⟩, And.left⟩
    · have other : p ≠ a := ne_of_gt (behind p late)
      rw [List.mem_cons, or_iff_right (fun e => other (Prod.mk.inj e).1), ih ascending _ late]
      refine and_congr_right fun _ => and_congr_right fun _ => and_congr_right fun _ => forall₂_congr fun b _ => ?_
      rw [List.mem_append, not_or, and_assoc]
      refine and_congr_right fun _ => ?_
      constructor
      · rintro ⟨first, others⟩ q rs' h below
        rcases List.mem_cons.mp h with e | later
        · rw [← (Prod.mk.inj e).2] at first
          exact first
        · exact others q rs' later below
      · intro lower
        refine ⟨fun held => ?_, fun q rs' h => lower q rs' (List.mem_cons_of_mem _ h)⟩
        cases first : loadable loaded (tget pages a) with
        | none => simp [first, bindingsOf] at held
        | some rs' =>
          rw [first] at held lower
          exact lower a rs' List.mem_cons_self (behind p late) held

end Sys2Proof.Machine

namespace Sys2Proof.Machine

theorem allPages_ascending : allPages.Pairwise (· < ·) := by decide

theorem mem_allPages (p : PageNo) : p ∈ allPages := by
  revert p
  decide

/-- R160: start-up loads a page. -/
def pageLoads (pages : Vector Page 6) (p : PageNo) : Bool :=
  (loadPages pages allPages []).any fun x => x.1 == p && x.2.isSome

section

variable {pages : Vector Page 6} {p : PageNo} {rs : List StoreRecord}

theorem pageLoads_iff : pageLoads pages p = true ↔ ∃ rs, (p, some rs) ∈ loadPages pages allPages [] := by
  simp only [pageLoads, List.any_eq_true, Bool.and_eq_true, beq_iff_eq, Option.isSome_iff_exists]
  constructor
  · rintro ⟨⟨_, _⟩, mem, rfl, rs, rfl⟩
    exact ⟨rs, mem⟩
  · rintro ⟨rs, mem⟩
    exact ⟨_, mem, rfl, rs, rfl⟩

theorem records_of_mem_loadPages (h : (p, some rs) ∈ loadPages pages allPages []) :
    recordsOf ((tget pages p).octets.toList.take 32) = some rs := by
  obtain ⟨_, held, _⟩ := (mem_loadPages_iff allPages_ascending [] (mem_allPages p)).mp h
  exact held

/-- A page that loads has one entry among the loads: its own records. -/
theorem mem_loadPages_of_records (loads : pageLoads pages p = true)
    (held : recordsOf ((tget pages p).octets.toList.take 32) = some rs) :
    (p, some rs) ∈ loadPages pages allPages [] := by
  obtain ⟨rs', mem⟩ := pageLoads_iff.mp loads
  rwa [← Option.some.inj ((records_of_mem_loadPages mem).symm.trans held)]

/-- R160: the pages that load: valid, in range, and no binding equal to another of the page or to one loaded from a lower
page. -/
theorem pageLoads_eq_true_iff :
    pageLoads pages p = true ↔
      (tget pages p).integrity = crc16 (tget pages p).octets.toList ∧
        ∃ rs, recordsOf ((tget pages p).octets.toList.take 32) = some rs ∧ (bindingsOf rs).Nodup ∧
          ∀ q, q < p → pageLoads pages q = true →
            ∀ rs', recordsOf ((tget pages q).octets.toList.take 32) = some rs' → ∀ b ∈ bindingsOf rs, b ∉ bindingsOf rs' := by
  simp only [pageLoads_iff (p := p), mem_loadPages_iff allPages_ascending [] (mem_allPages p)]
  constructor
  · rintro ⟨rs, valid, held, once, new⟩
    exact ⟨valid, rs, held, once, fun q below loads rs' held' b hb =>
      (new b hb).2 q rs' (mem_loadPages_of_records loads held') below⟩
  · rintro ⟨valid, rs, held, once, new⟩
    exact ⟨rs, valid, held, once, fun b hb => ⟨List.not_mem_nil, fun q rs' mem below =>
      new q below (pageLoads_iff.mpr ⟨rs', mem⟩) rs' (records_of_mem_loadPages mem) b hb⟩⟩

/-- R160: the pages treated as INVALID, in order. -/
theorem invalidPages_loadPages (pages : Vector Page 6) :
    invalidPages (loadPages pages allPages []) = allPages.filter fun p => !pageLoads pages p := by
  have keys : ((loadPages pages allPages []).map Prod.fst).Nodup := by
    rw [loadPages_pages]
    decide
  have entry : ∀ x ∈ loadPages pages allPages [], x.2.isNone = !pageLoads pages x.1 := by
    rintro ⟨p, o⟩ mem
    cases o with
    | some rs => simp [pageLoads_iff.mpr ⟨rs, mem⟩]
    | none =>
      have stays : pageLoads pages p = false := by
        rw [← Bool.not_eq_true, pageLoads_iff]
        rintro ⟨rs, mem'⟩
        exact absurd (Prod.mk.inj (List.inj_on_of_nodup_map keys mem mem' rfl)).2 nofun
      simp [stays]
  have parts : ∀ l : List (PageNo × Option (List StoreRecord)),
      invalidPages l = (l.filter fun x => x.2.isNone).map Prod.fst := fun l => by
    rw [invalidPages, ← List.filterMap_eq_map, List.filterMap_filter]
    rfl
  calc invalidPages (loadPages pages allPages [])
      = ((loadPages pages allPages []).filter fun x => !pageLoads pages x.1).map Prod.fst := by
        rw [parts, List.filter_congr entry]
    _ = ((loadPages pages allPages []).map Prod.fst).filter fun p => !pageLoads pages p := by
        rw [List.filter_map]
        rfl
    _ = allPages.filter fun p => !pageLoads pages p := by rw [loadPages_pages]

end

/-! ### The zones that start-up leaves (R160) -/

theorem mem_zip_zonesOfPage {p : PageNo} {rs : List StoreRecord} {z : Zone} {r : StoreRecord} :
    (z, r) ∈ (zonesOfPage p).zip rs ↔ pageOfZone z = p ∧ rs[z.val % 8]? = some r := by
  simp only [List.mem_iff_getElem?, List.getElem?_zip_eq_some]
  have place : ∀ i, (zonesOfPage p)[i]? = some z ↔ pageOfZone z = p ∧ i = z.val % 8 := fun i => by
    simp only [zonesOfPage, pageOfZone, List.getElem?_map, List.getElem?_eq_some_iff, Option.map_eq_some_iff, Fin.ext_iff,
      List.length_finRange, List.getElem_finRange]
    constructor
    · rintro ⟨j, ⟨h, e⟩, ez⟩
      simp at e
      omega
    · rintro ⟨hp, hi⟩
      exact ⟨⟨i, by omega⟩, ⟨by omega, by simp⟩, by simp; omega⟩
  simp only [place]
  constructor
  · rintro ⟨i, ⟨hp, rfl⟩, at_r⟩
    exact ⟨hp, at_r⟩
  · rintro ⟨hp, at_r⟩
    exact ⟨_, ⟨hp, rfl⟩, at_r⟩

/-- R160: a zone after the loads: its record in a page that loads, or the default. -/
theorem loadZones_cases (loads : List (PageNo × Option (List StoreRecord))) (z : Zone) :
    (∃ x ∈ loads, ∃ r, (z, r) ∈ (zonesOfPage x.1).zip (loadRecords x) ∧ tget (loadZones loads) z = loadedZone r) ∨
      ((∀ x ∈ loads, ∀ r, (z, r) ∉ (zonesOfPage x.1).zip (loadRecords x)) ∧
        tget (loadZones loads) z = ZoneRec.ofInvalidPage) := by
  have flat : loadZones loads = (loads.flatMap fun x => (zonesOfPage x.1).zip (loadRecords x)).foldl
      (fun v y => tmod v y.1 fun _ => loadedZone y.2) (Vector.replicate 48 ZoneRec.ofInvalidPage) := by
    rw [List.foldl_flatMap]
    rfl
  rw [flat]
  rcases foldl_tmod_cases (fun r (_ : ZoneRec) => loadedZone r) (loads.flatMap fun x => (zonesOfPage x.1).zip (loadRecords x))
    (Vector.replicate 48 ZoneRec.ofInvalidPage) z with ⟨r, _, mem, e⟩ | ⟨absent, e⟩
  · obtain ⟨x, hx, mem⟩ := List.mem_flatMap.mp mem
    exact .inl ⟨x, hx, r, mem, e⟩
  · refine .inr ⟨fun x hx r mem => absent (List.mem_map.mpr ⟨(z, r), List.mem_flatMap.mpr ⟨x, hx, mem⟩, rfl⟩), ?_⟩
    rw [e, tget_replicate]

/-- A zone with a record among the loads is in a page that loads, and the record is its own. -/
theorem record_of_load {pages : Vector Page 6} {x : PageNo × Option (List StoreRecord)}
    (hx : x ∈ loadPages pages allPages []) {z : Zone} {r : StoreRecord}
    (mem : (z, r) ∈ (zonesOfPage x.1).zip (loadRecords x)) :
    pageLoads pages (pageOfZone z) = true ∧
      ∀ rs, recordsOf ((tget pages (pageOfZone z)).octets.toList.take 32) = some rs → rs[z.val % 8]? = some r := by
  obtain ⟨p, o⟩ := x
  obtain ⟨rfl, at_r⟩ := mem_zip_zonesOfPage.mp mem
  cases o with
  | none => simp [loadRecords] at at_r
  | some rs' =>
    refine ⟨pageLoads_iff.mpr ⟨rs', hx⟩, fun rs held => ?_⟩
    rwa [Option.some.inj (held.symm.trans (records_of_mem_loadPages hx))]

/-- R160: a zone of a page treated as INVALID keeps the default. -/
theorem loadZones_invalid {pages : Vector Page 6} {z : Zone} (invalid : pageLoads pages (pageOfZone z) = false) :
    tget (loadZones (loadPages pages allPages [])) z = ZoneRec.ofInvalidPage := by
  rcases loadZones_cases (loadPages pages allPages []) z with ⟨x, hx, r, mem, _⟩ | ⟨_, e⟩
  · exact absurd ((record_of_load hx mem).1.symm.trans invalid) (by decide)
  · exact e

/-- R160: a zone of a page that loads takes its record. -/
theorem loadZones_loaded {pages : Vector Page 6} {z : Zone} {rs : List StoreRecord} {r : StoreRecord}
    (loads : pageLoads pages (pageOfZone z) = true)
    (held : recordsOf ((tget pages (pageOfZone z)).octets.toList.take 32) = some rs) (at_r : rs[z.val % 8]? = some r) :
    tget (loadZones (loadPages pages allPages [])) z = loadedZone r := by
  rcases loadZones_cases (loadPages pages allPages []) z with ⟨x, hx, r', mem, e⟩ | ⟨absent, _⟩
  · have own := (record_of_load hx mem).2 rs held
    rw [e, Option.some.inj (own.symm.trans at_r)]
  · exact absurd (mem_zip_zonesOfPage.mpr ⟨rfl, at_r⟩) (absent _ (mem_loadPages_of_records loads held) r)

end Sys2Proof.Machine

namespace Sys2Proof.Machine

/-! ### The entries of start-up (R143, R148, R160) -/

/-- The entries that start-up appends carry one time, because an append leaves the seconds counter. -/
theorem foldl_pageInvalid (ps : List PageNo) (s : State) :
    ps.foldl (fun a p => appendLog (Entry.pageInvalid a.seconds p) a) s =
      (ps.map (Entry.pageInvalid s.seconds)).foldl (fun a e => appendLog e a) s := by
  induction ps generalizing s with
  | nil => rfl
  | cons p rest ih =>
    have seconds : (appendLog (Entry.pageInvalid s.seconds p) s).seconds = s.seconds := by rw [appendLog_eq]
    rw [List.foldl_cons, ih, seconds, List.map_cons, List.foldl_cons]

theorem discardOldest_congr {s t : State} (log : t.log = s.log) (reader : t.venueReader = s.venueReader) :
    (discardOldest t).log = (discardOldest s).log ∧ (discardOldest t).venueReader = (discardOldest s).venueReader := by
  unfold discardOldest
  rw [log]
  split
  · exact ⟨log, reader⟩
  · split
    · exact ⟨log, reader⟩
    · next e _ _ _ => exact ⟨rfl, congrArg (readerAfterDiscard .venue e) reader⟩

/-- What appends make of the log and of the venue's reader depends on these alone. -/
theorem foldl_appendLog_congr (es : List Entry) {s t : State} (log : t.log = s.log)
    (reader : t.venueReader = s.venueReader) :
    (es.foldl (fun a e => appendLog e a) t).log = (es.foldl (fun a e => appendLog e a) s).log ∧
      (es.foldl (fun a e => appendLog e a) t).venueReader = (es.foldl (fun a e => appendLog e a) s).venueReader := by
  induction es generalizing s t with
  | nil => exact ⟨log, reader⟩
  | cons e rest ih =>
    obtain ⟨log', reader'⟩ := discardOldest_congr log reader
    have venue : ∀ x, (appendLog e x).venueReader = (discardOldest x).venueReader := fun x =>
      Option.some.inj (appendLog_reader e x .venue)
    exact ih (by rw [appendLog_log, appendLog_log, log']) (by rw [venue, venue, reader'])

/-- R148, R149: no tenant has a reader, and so no tenant port has LOG. -/
def TenantsUnread (s : State) : Prop := ∀ t, tget s.tenantReaders t = none ∧ (s.port (.tenant t)).log = false

theorem tenantsUnread_appendLog (e : Entry) {s : State} (h : TenantsUnread s) : TenantsUnread (appendLog e s) := by
  intro t
  have old : s.reader (.tenant t) = none := (h t).1
  have noReader : (appendLog e s).reader (.tenant t) = none := by
    rw [appendLog_reader]
    unfold discardOldest
    split
    · exact old
    · split
      · exact old
      · simp only [State.reader, tget_tmapIdx, (h t).1, Option.map_none]
  refine ⟨noReader, ?_⟩
  rw [appendLog_reason, logReasonOf, noReader]

theorem tenantsUnread_evalLog_venue {s : State} (h : TenantsUnread s) : TenantsUnread (evalLog .venue s) := fun t =>
  ⟨(h t).1, (evalLog_reason .venue (.tenant t) s).trans (h t).2⟩

theorem tenantsUnread_startedPart (s : State) : TenantsUnread (startedPart s) := fun t =>
  ⟨tget_replicate _ t, congrArg PortRec.log (startedPart_port s (.tenant t))⟩

/-- R148: port V has LOG where its reader has a lost count or an entry at or after its cursor. -/
theorem logReasonOf_venue (s : State) :
    logReasonOf s .venue = true ↔ 0 < s.venueReader.lost ∨ s.venueReader.cursor < s.log.length := by
  have unread : (s.log.drop s.venueReader.cursor).any (visibleTo .venue) = true ↔
      s.venueReader.cursor < s.log.length := by
    have all : visibleTo .venue = fun _ => true := rfl
    cases left : s.log.drop s.venueReader.cursor with
    | nil =>
      have := List.drop_eq_nil_iff.mp left
      simp
      omega
    | cons e rest =>
      have : 0 < (s.log.drop s.venueReader.cursor).length := by simp [left]
      rw [List.length_drop] at this
      simp [all]
      omega
  simp only [logReasonOf, State.reader, Bool.or_eq_true, decide_eq_true_eq, unread]

/-! ### The end of start-up (R160, R161) -/

/-- R160: the entries of the pages treated as INVALID. -/
def startUpEntries (s : State) : List Entry :=
  (allPages.filter fun p => !pageLoads s.pages p).map (Entry.pageInvalid s.seconds)

theorem startUp_early {s : State} (early : s.starting = false ∨ s.storeOp.isSome = true) : startUp s = s :=
  if_pos (by rcases early with h | h <;> simp [h])

theorem startUp_eq {s : State} (starting : s.starting = true) (idle : s.storeOp = none) :
    startUp s = evalLog .venue ((startUpEntries s).foldl (fun a e => appendLog e a) (startedPart s)) := by
  have entries := foldl_pageInvalid (allPages.filter fun p => !pageLoads s.pages p) (startedPart s)
  rw [startUp, if_neg (by simp [starting, idle]), invalidPages_loadPages]
  exact congrArg (evalLog .venue) entries

section

variable {s : State} (starting : s.starting = true) (idle : s.storeOp = none)
include starting idle

/-- Outside the log and its readers, start-up leaves the started part. -/
theorem startUp_outsideLog : outsideLog (startUp s) = outsideLog (startedPart s) := by
  rw [startUp_eq starting idle, outsideLog_evalLog]
  exact foldl_keeps outsideLog _ (fun a e => outsideLog_appendLog e a) _ _

theorem startUp_log :
    (startUp s).log = ((startUpEntries s).foldl (fun a e => appendLog e a) s).log ∧
      (startUp s).venueReader = ((startUpEntries s).foldl (fun a e => appendLog e a) s).venueReader := by
  rw [startUp_eq starting idle, evalLog_eq]
  exact foldl_appendLog_congr _ rfl rfl

theorem startUp_tenantsUnread : TenantsUnread (startUp s) := by
  rw [startUp_eq starting idle]
  exact tenantsUnread_evalLog_venue
    (foldl_kept (fun _ e h => tenantsUnread_appendLog e h) _ (tenantsUnread_startedPart s))

theorem startUp_venueLog :
    ((startUp s).port .venue).log = true ↔
      0 < (startUp s).venueReader.lost ∨ (startUp s).venueReader.cursor < (startUp s).log.length := by
  rw [startUp_eq starting idle, evalLog_reason, if_pos rfl, logReasonOf_venue]
  rfl

end

theorem startedRemote_eq (z : ZoneRec) :
    startedRemote z = { RemoteRec.unbound with state := if z.binding = none then .unbound else .searching } := by
  cases bound : z.binding with
  | none => simp [startedRemote, bound]
  | some b => simp [startedRemote, bound]

theorem startedLink_eq (l : LinkRec) :
    startedLink l =
      { lockCond := l.lockCond
        locked := l.lockCond
        rx := .seeking
        afterC3 := false
        queue := [.chainMute]
        sending := if l.lockCond = true then .queued else .nothing
        round := none
        lineOut := [] } := rfl

end Sys2Proof.Machine

namespace Sys2Proof.Machine.Settled

/-- Settles O56: the part that start-up leaves (`startUp_outsideLog`), the pages that load (`pageLoads_eq_true_iff`), and
the log with its readers and reasons. -/
theorem startUp : Obligations.StartUp := by
  intro s
  refine ⟨fun early => congrArg Host.Outcome.next (startUp_early early), fun starting idle => ?_⟩
  have outside := startUp_outsideLog starting idle
  obtain ⟨log, reader⟩ := startUp_log starting idle
  have zones : (Machine.startUp s).zones = loadZones (loadPages s.pages allPages []) := congrArg State.zones outside
  have remotes : (Machine.startUp s).remotes = tmapIdx (fun _ z => startedRemote z) (Machine.startUp s).zones :=
    (congrArg State.remotes outside).trans (by rw [zones]; rfl)
  have links : (Machine.startUp s).links = tmapIdx (fun _ l => startedLink l) s.links := congrArg State.links outside
  refine ⟨Machine.startUp s, pageLoads s.pages, rfl, fun p => pageLoads_eq_true_iff, fun z invalid => ?_,
    fun z rs r loads held at_r => ?_, fun z => ?_, fun f => ?_, log, reader, startUp_tenantsUnread starting idle,
    startUp_venueLog starting idle, ?_⟩
  · rw [State.zone, zones, loadZones_invalid invalid]
    rfl
  · rw [State.zone, zones, loadZones_loaded loads held at_r]
    rfl
  · rw [State.remote, remotes, tget_tmapIdx, startedRemote_eq]
    rfl
  · rw [State.link, links, tget_tmapIdx]
    exact startedLink_eq _
  · rw [outside, zones, links, remotes, zones]
    rfl

end Sys2Proof.Machine.Settled

namespace Sys2Proof.Machine

/-! ### The derate of a class (R126) -/

theorem setDerate_none {a b : Byte} (h : 3 < a.toNat) (s : State) : setDerate a b s = setResult .venue .range s := by
  simp only [setDerate, alarmOf_none h]

theorem setDerate_class {a b : Byte} {c : AlarmClass} (h : alarmOf a = some c) (s : State) :
    setDerate a b s =
      setResult .venue (if 32 < b.toNat then .clamped else .ok) (storeDerate c (min b.toNat 32) s) := by
  simp only [setDerate, h, clampResult_decide]

/-- R126: the passes of a changed derate, at the zones whose remote has the class active. -/
theorem storeDerate_passed (c : AlarmClass) (v : Nat) (s : State) :
    Passed (fun z => tget s.derate (alarmIdx c) ≠ v ∧ (tget (s.remote z).alarms (alarmIdx c)).active = true)
      { s with derate := tset s.derate (alarmIdx c) v } (storeDerate c v s) :=
  passed_ite (q := tget s.derate (alarmIdx c) = v)
    (passes_passed (classActive { s with derate := tset s.derate (alarmIdx c) v } c) _)

/-! ### Entry to ISOLATED (R130) -/

/-- R130: the record, the outage of a zone in service, the results of its zone, and the SET. -/
theorem enterIsolated_enters (z : Zone) (cause : IsolationCause) (s : State) :
    EntersIsolated z cause s (enterIsolated z cause s) := by
  have record : (if inService s z = true then outage z (s.modRemote z (isolatedRecord cause))
      else s.modRemote z (isolatedRecord cause)) =
      { s.modRemote z (isolatedRecord cause) with
        cells :=
          if inService s z then (s.modZoneCells z fun _ c => { c with home := c.target, occupancy := 0 }).cells else s.cells
        moves := if inService s z then s.moves.filter fun m => m.zone != z else s.moves } := by
    cases inService s z with
    | true => exact outage_record z _
    | false => rfl
  exact ⟨_, rfl, Eq.subst (motive := fun x => Results _ x _) record (passResults_results z _)⟩

/-- A change of a port's record can be taken before or after the entry to ISOLATED. -/
theorem EntersIsolated.modPort {z : Zone} {cause : IsolationCause} {s t : State} (h : EntersIsolated z cause s t) (p : Port)
    (g : PortRec → PortRec) : EntersIsolated z cause (s.modPort p g) (t.modPort p g) := by
  obtain ⟨v, rfl, results⟩ := h
  exact ⟨v.modPort p g, (queueSet_modPort z v p g).symm, results.modPort p g⟩

theorem EntersIsolated.seconds {z : Zone} {cause : IsolationCause} {s t : State} (h : EntersIsolated z cause s t) :
    t.seconds = s.seconds := by
  obtain ⟨v, rfl, results, _⟩ := h
  rw [queueSet_eq, results]
  rfl

/-! ### The venue's isolation commands (R132, R133) -/

section

variable {a : Byte} {z : Zone} {s : State}

theorem isolateRemote_noZone (h : 47 < a.toNat) (s : State) : isolateRemote a s = setResult .venue .range s := by
  simp only [isolateRemote, zoneOf_none h]

theorem isolateRemote_refused (h : a.toNat = z.val) (out : (s.remote z).state = .unbound ∨ (s.remote z).state = .isolated) :
    isolateRemote a s = setResult .venue .state s := by
  rcases out with out | out <;> simp only [isolateRemote, zoneOf_some h, out]

theorem isolateRemote_accepted (h : a.toNat = z.val) (bound : (s.remote z).state ≠ .unbound)
    (free : (s.remote z).state ≠ .isolated) :
    isolateRemote a s = finish s (setResult .venue .ok (enterIsolated z .venue s)) := by
  rw [isolateRemote, zoneOf_some h]
  dsimp only
  split
  · exact absurd ‹_› bound
  · exact absurd ‹_› free
  · rfl

theorem restoreRemote_noZone (h : 47 < a.toNat) (s : State) : restoreRemote a s = setResult .venue .range s := by
  simp only [restoreRemote, zoneOf_none h]

theorem restoreRemote_refused (h : a.toNat = z.val) (free : (s.remote z).state ≠ .isolated) :
    restoreRemote a s = setResult .venue .state s := by
  simp only [restoreRemote, zoneOf_some h, free, if_false]

theorem restoreRemote_accepted (h : a.toNat = z.val) (isolated : (s.remote z).state = .isolated) :
    restoreRemote a s = setResult .venue .ok (pass z (s.modRemote z restoredRecord)) := by
  simp only [restoreRemote, zoneOf_some h, isolated, if_true]

end

end Sys2Proof.Machine

namespace Sys2Proof.Machine.Settled

/-- Settles O38: the refusal of `setDerate`, and the passes of a changed derate. -/
theorem setDerate : Obligations.SetDerate := by
  intro s a b h
  have run : exec (.setDerate .venue (Burst.whole [a, b])) s =
      .next (Machine.setDerate a b (afterFixed .venue .setDerate 2 .incomplete s)) :=
    exec_venue h (c := .setDerate) rfl (by decide) rfl
  refine ⟨fun ha => exec_result run (setDerate_none ha _), fun i hi => ⟨_, run, ?_⟩⟩
  obtain ⟨c, named, rfl⟩ := alarmOf_some hi
  rw [setDerate_class named]
  exact passed_afterFixed (fun x => { x with derate := tset x.derate (alarmIdx c) (min b.toNat 32) })
    (storeDerate_passed c _ _) rfl

/-- Settles O51: the refusals of the two commands, the entry to ISOLATED with its close, and the pass of a restore. -/
theorem isolateAndRestore : Obligations.IsolateAndRestore := by
  intro s a h
  have isolate : exec (.isolateRemote .venue (Burst.whole [a])) s =
      .next (isolateRemote a (afterFixed .venue .isolateRemote 1 .incomplete s)) :=
    exec_venue h (c := .isolateRemote) rfl (by decide) rfl
  have restore : exec (.restoreRemote .venue (Burst.whole [a])) s =
      .next (restoreRemote a (afterFixed .venue .restoreRemote 1 .incomplete s)) :=
    exec_venue h (c := .restoreRemote) rfl (by decide) rfl
  refine ⟨fun ha => ⟨exec_result isolate (isolateRemote_noZone ha _), exec_result restore (restoreRemote_noZone ha _)⟩,
    fun z hz => ⟨fun out => exec_result isolate (isolateRemote_refused hz out), fun bound free => ?_,
      fun free => exec_result restore (restoreRemote_refused hz free), fun isolated => ⟨_, restore, ?_⟩⟩⟩
  · have closed := isolate.trans (congrArg _ (isolateRemote_accepted hz bound free))
    have enters := (enterIsolated_enters z .venue (afterFixed .venue .isolateRemote 1 .incomplete s)).modPort .venue
      fun q => { q with result := .ok }
    refine ⟨_, _, closed, finish_closed s _ _ fun _ => rfl, ?_⟩
    rwa [← setResult_afterFixed .venue .isolateRemote 1 .ok .incomplete s]
  · rw [restoreRemote_accepted (s := afterFixed .venue .restoreRemote 1 .incomplete s) hz isolated]
    exact passed_afterFixed (fun x => x.modRemote z restoredRecord) (pass_passed z _) rfl

end Sys2Proof.Machine.Settled

namespace Sys2Proof.Machine

/-! ### The overdrive check (R129) -/

section

variable {z : Zone} {st : Status} {s : State}

/-- The overdrive check of a remote in service: the count, and the isolation of one that rises to 3. -/
theorem replyOverdrive_serving (service : inService s z = true) :
    replyOverdrive z st s =
      if (s.remote z).overdrive < overdriveAfter (s.zone z).effLimit st (s.remote z) ∧
          overdriveAfter (s.zone z).effLimit st (s.remote z) = 3 then
        logZone .overdrive .all z (enterIsolated z .overdrive
          (s.modRemote z fun r => { r with overdrive := overdriveAfter (s.zone z).effLimit st (s.remote z) }))
      else s.modRemote z fun r => { r with overdrive := overdriveAfter (s.zone z).effLimit st (s.remote z) } := by
  simp only [replyOverdrive, service, if_true, Bool.and_eq_true, decide_eq_true_eq, beq_iff_eq]

/-- An overdrive count that does not rise to 3 isolates nothing. -/
theorem replyOverdrive_counted {n : Nat} (service : inService s z = true)
    (count : overdriveAfter (s.zone z).effLimit st (s.remote z) = n) (low : ¬ ((s.remote z).overdrive < n ∧ n = 3)) :
    replyOverdrive z st s = s.modRemote z fun r => { r with overdrive := n } := by
  rw [replyOverdrive_serving service, count, if_neg low]

end

theorem overdriveAfter_held {eff : Nat} {st : Status} {r : RemoteRec}
    (differs : ¬ (st.applied = r.sentLimit ∧ r.sentLimit = eff)) : overdriveAfter eff st r = r.overdrive :=
  if_neg differs

theorem overdriveAfter_same {eff : Nat} {st : Status} {r : RemoteRec}
    (same : st.applied = r.sentLimit ∧ r.sentLimit = eff) :
    overdriveAfter eff st r = if eff + eff / 8 + 8 < st.output then min (r.overdrive + 1) 3 else 0 :=
  if_pos same

theorem State.modRemote_eq (s : State) (z : Zone) {f : RemoteRec → RemoteRec} (h : f (s.remote z) = s.remote z) :
    s.modRemote z f = s := by
  rw [State.modRemote_congr s z (g := id) h]
  simp only [State.modRemote, tmod, id, tset_tget]

/-- An entry about the isolation of a zone carries the time of the event. -/
theorem EntersIsolated.log {z : Zone} {cause : IsolationCause} {s t : State} (h : EntersIsolated z cause s t)
    (e : BitVec 32 → Entry) : appendLog (e t.seconds) t = appendLog (e s.seconds) t := by
  rw [h.seconds]

/-! ### Escalation (R127) -/

theorem allAlarms_ordered : allAlarms.Pairwise fun c d => alarmIdx c < alarmIdx d := by decide

/-- R127: the class that escalates is the first that qualifies. -/
theorem escalated_eq_some_iff {s : State} {z : Zone} {c : AlarmClass} {qualifies : AlarmClass → Prop}
    (q : ∀ d, qualifies d ↔ (alarmAt s z d).active = true ∧ tget s.escalation (alarmIdx d) ≠ 0 ∧
      tget s.escalation (alarmIdx d) ≤ (alarmAt s z d).escalation) :
    escalated s z = some c ↔ qualifies c ∧ ∀ d, alarmIdx d < alarmIdx c → ¬ qualifies d := by
  rw [escalated, find?_ordered (fun h => not_lt_of_gt h) allAlarms_ordered]
  simp [mem_allAlarms, q, and_assoc]

theorem escalated_eq_none_iff {s : State} {z : Zone} :
    escalated s z = none ↔ ∀ d, ¬ ((alarmAt s z d).active = true ∧ tget s.escalation (alarmIdx d) ≠ 0 ∧
      tget s.escalation (alarmIdx d) ≤ (alarmAt s z d).escalation) := by
  simp [escalated, mem_allAlarms]

/-- R127: the escalation counts of a remote that is not ISOLATED rise. -/
def escalationRaised (z : Zone) (s : State) : State :=
  s.modRemote z fun r => { r with alarms := tmapIdx (fun _ a => raiseEscalation a) r.alarms }

theorem replyEscalation_free {z : Zone} {s : State} (free : (s.remote z).state ≠ .isolated) :
    replyEscalation z s =
      match escalated (escalationRaised z s) z with
      | some c => logAlarm .autoIsolated .all z c (enterIsolated z (.escalation c) (escalationRaised z s))
      | none => escalationRaised z s :=
  if_neg free

theorem replyEscalation_raised {z : Zone} {s : State} (free : (s.remote z).state ≠ .isolated)
    (below : escalated (escalationRaised z s) z = none) : replyEscalation z s = escalationRaised z s := by
  simp only [replyEscalation_free free, below]

theorem replyEscalation_isolates {z : Zone} {s : State} {c : AlarmClass} (free : (s.remote z).state ≠ .isolated)
    (found : escalated (escalationRaised z s) z = some c) :
    replyEscalation z s =
      logAlarm .autoIsolated .all z c (enterIsolated z (.escalation c) (escalationRaised z s)) := by
  simp only [replyEscalation_free free, found]

/-! ### The alarm handling of a class (R125) -/

/-- A change of the record of a class is the record that it makes of the present one. -/
theorem modAlarm_eq (z : Zone) (c : AlarmClass) (g : AlarmRec → AlarmRec) (s : State) :
    modAlarm z c g s =
      s.modRemote z fun r => { r with alarms := tset r.alarms (alarmIdx c) (g (alarmAt s z c)) } :=
  State.modRemote_congr s z rfl

/-- The pass of an alarm that comes or goes, and its entry with the time of the event. -/
theorem passed_logAlarm (kind : LogKind) (z : Zone) (c : AlarmClass) (s : State) :
    ∃ v, Passed (fun y => y = z) s v ∧
      logAlarm kind .venue z c (pass z s) =
        appendLog { kind := kind, time := s.seconds, vis := .venue, zone := some z, alarm := some c } v := by
  have passed := pass_passed z s
  have time : (pass z s).seconds = s.seconds := by rw [passed.eq]
  exact ⟨_, passed, by rw [logAlarm, logEntry, time]⟩

section

variable {z : Zone} {st : Status} {c : AlarmClass} {s : State}

theorem replyAlarm_absent (active : (alarmAt s z c).active = false) (flag : statusFlag st c = false) :
    replyAlarm z st c s = modAlarm z c (fun a => { a with onset := 0 }) s := by
  simp [replyAlarm, active, flag]

theorem replyAlarm_onset (active : (alarmAt s z c).active = false) (flag : statusFlag st c = true) :
    replyAlarm z st c s =
      if s.alarmDebounce ≤ (alarmAt s z c).onset + 1 then
        logAlarm .alarmOn .venue z c (pass z (modAlarm z c (fun a => { a with active := true, onset := 0 }) s))
      else modAlarm z c (fun a => { a with onset := min (a.onset + 1) 8 }) s := by
  simp [replyAlarm, active, flag]

theorem replyAlarm_clearing (active : (alarmAt s z c).active = true) (flag : statusFlag st c = false) :
    replyAlarm z st c s =
      if s.alarmDebounce ≤ (alarmAt s z c).clearing + 1 then
        logAlarm .alarmOff .venue z c
          (pass z (modAlarm z c (fun a => { a with active := false, clearing := 0, escalation := 0 }) s))
      else modAlarm z c (fun a => { a with clearing := min (a.clearing + 1) 8 }) s := by
  simp [replyAlarm, active, flag]

theorem replyAlarm_present (active : (alarmAt s z c).active = true) (flag : statusFlag st c = true) :
    replyAlarm z st c s = modAlarm z c (fun a => { a with clearing := 0 }) s := by
  simp [replyAlarm, active, flag]

/-! ### Echo convergence (R135) -/

theorem replyEcho_out (alive : (s.remote z).state ≠ .alive) (degraded : (s.remote z).state ≠ .degraded)
    (isolated : (s.remote z).state ≠ .isolated) : replyEcho z st s = s := by
  have out : inService s z = false := by
    unfold inService
    split
    · exact absurd ‹_› alive
    · exact absurd ‹_› degraded
    · rfl
  simp [replyEcho, out, isolated]

theorem replyEcho_sent
    (sent : (s.remote z).state = .alive ∨ (s.remote z).state = .degraded ∨ (s.remote z).state = .isolated) :
    replyEcho z st s = if echoDiffers s z st = true then queueSet z s else s := by
  refine if_pos ?_
  rcases sent with h | h | h <;> simp [inService, h]

/-- R135: the echo differs from what was last sent, and no SET for the position waits or is owed. -/
theorem echoDiffers_iff {b : Binding} (bound : (s.zone z).binding = some b) :
    echoDiffers s z st = true ↔
      (st.applied ≠ (s.remote z).sentLimit ∨ st.mute ≠ if (s.remote z).sentMute = true then 1 else 0) ∧
        (s.remote z).setOwed = false ∧ ∀ limit mute, Frame.set b.pos limit mute ∉ waitingFrames (s.link b.port) := by
  have mute : octet (bit (s.remote z).sentMute) = if (s.remote z).sentMute = true then 1 else 0 := by
    cases (s.remote z).sentMute <;> rfl
  have waits : setWaiting (s.link b.port) b.pos = false ↔
      ∀ limit mute, Frame.set b.pos limit mute ∉ waitingFrames (s.link b.port) := by
    rw [← Bool.not_eq_true, setWaiting_iff]
    simp only [not_exists]
  simp only [echoDiffers, bound, mute, ← waits, Bool.and_eq_true, Bool.or_eq_true, bne_iff_ne, Bool.not_eq_true', and_assoc]

end

end Sys2Proof.Machine

namespace Sys2Proof.Machine.Settled

/-- Settles O48: the count that the overdrive check leaves (`overdriveAfter`), the class that escalates first
(`escalated_eq_some_iff`), and the entry to ISOLATED of either. -/
theorem replyIsolates : Obligations.ReplyIsolates := by
  intro s z st
  refine ⟨⟨fun out => if_neg (by simp [out]), fun service => ⟨fun differs => ?_, fun same low => ?_, fun same high =>
    ⟨fun below => ?_, fun third => ?_⟩⟩⟩, fun isolated => if_pos isolated, fun free => ⟨fun below => ?_, fun c first before => ?_⟩⟩
  · rw [replyOverdrive_counted service (overdriveAfter_held differs) (by omega)]
    exact State.modRemote_eq s z rfl
  · exact replyOverdrive_counted service ((overdriveAfter_same same).trans (if_neg (by omega))) (by omega)
  · exact replyOverdrive_counted service ((overdriveAfter_same same).trans (if_pos high)) (by omega)
  · have count : overdriveAfter (s.zone z).effLimit st (s.remote z) = 3 := by
      rw [overdriveAfter_same same, if_pos high, third]
      rfl
    have enters := enterIsolated_enters z .overdrive (s.modRemote z fun r => { r with overdrive := 3 })
    refine ⟨_, enters, ?_⟩
    rw [replyOverdrive_serving service, count, if_pos ⟨by omega, rfl⟩]
    exact enters.log fun time => { kind := .overdrive, time := time, vis := .all, zone := some z }
  · exact replyEscalation_raised free (escalated_eq_none_iff.mpr below)
  · have enters := enterIsolated_enters z (.escalation c) (escalationRaised z s)
    refine ⟨_, enters, ?_⟩
    rw [replyEscalation_isolates free ((escalated_eq_some_iff fun _ => Iff.rfl).mpr ⟨first, before⟩)]
    exact enters.log fun time => { kind := .autoIsolated, time := time, vis := .all, zone := some z, alarm := some c }

/-- Settles O49: the cases of a class by its flag and its count (`replyAlarm`), and what `echoDiffers` asks. -/
theorem alarmsAndEcho : Obligations.AlarmsAndEcho := by
  intro s z st
  refine ⟨fun c => ⟨fun active flag few => ?_, fun active flag enough => ?_, fun active flag => ?_,
    fun active flag few => ?_, fun active flag enough => ?_, fun active flag => ?_⟩, replyEcho_out, fun sent b bound => ?_⟩
  · rw [replyAlarm_onset active flag, if_neg (by omega), modAlarm_eq]
  · rw [replyAlarm_onset active flag, if_pos enough, modAlarm_eq]
    exact passed_logAlarm .alarmOn z c _
  · rw [replyAlarm_absent active flag, modAlarm_eq]
  · rw [replyAlarm_clearing active flag, if_neg (by omega), modAlarm_eq]
  · rw [replyAlarm_clearing active flag, if_pos enough, modAlarm_eq]
    exact passed_logAlarm .alarmOff z c _
  · rw [replyAlarm_present active flag, modAlarm_eq]
  · have differs := echoDiffers_iff (st := st) bound
    rw [replyEcho_sent sent]
    exact ⟨fun h => if_pos (differs.mpr h), fun h => if_neg fun e => h (differs.mp e)⟩

end Sys2Proof.Machine.Settled

namespace Sys2Proof.Machine

/-! ### The positions of a port whose remote has a property (R136) -/

section

variable {s : State} {f : FPort} {p : Pos} {z : Zone}

theorem posLost_of_zoneAt (h : zoneAt s f p = some z) : posLost s f p = ((s.remote z).state == .lost) := by
  simp only [posLost, h]

theorem posFlagged_of_zoneAt (h : zoneAt s f p = some z) : posFlagged s f p = (s.remote z).lostThisRound := by
  simp only [posFlagged, h]

/-- A test of the bound positions that reads the record of the zone at each. -/
theorem mem_boundPositions_filter {test : Pos → Bool} {holds : RemoteRec → Prop} (distinct : BindingsDistinct s)
    (reads : ∀ p z, zoneAt s f p = some z → (test p = true ↔ holds (s.remote z))) :
    p ∈ (boundPositions s f).filter test ↔ ∃ z, (s.zone z).binding = some ⟨f, p⟩ ∧ holds (s.remote z) := by
  rw [List.mem_filter, mem_boundPositions]
  constructor
  · rintro ⟨⟨z, bound⟩, holds⟩
    exact ⟨z, bound, (reads p z ((zoneAt_eq_some_iff distinct).mpr bound)).mp holds⟩
  · rintro ⟨z, bound, holds⟩
    exact ⟨⟨z, bound⟩, (reads p z ((zoneAt_eq_some_iff distinct).mpr bound)).mpr holds⟩

theorem mem_lossGroup (distinct : BindingsDistinct s) :
    p ∈ lossGroup s f ↔
      ∃ z, (s.zone z).binding = some ⟨f, p⟩ ∧ (s.remote z).lostThisRound = true ∧ (s.remote z).state = .lost :=
  mem_boundPositions_filter (holds := fun r => r.lostThisRound = true ∧ r.state = .lost) distinct fun p z h => by
    simp [posFlagged_of_zoneAt h, posLost_of_zoneAt h]

theorem posLost_iff (distinct : BindingsDistinct s) :
    posLost s f p = true ↔ ∃ z, (s.zone z).binding = some ⟨f, p⟩ ∧ (s.remote z).state = .lost := by
  constructor
  · intro lost
    cases at_p : zoneAt s f p with
    | none => simp [posLost, at_p] at lost
    | some z => exact ⟨z, binding_of_zoneAt at_p, by simpa [posLost_of_zoneAt at_p] using lost⟩
  · rintro ⟨z, bound, lost⟩
    simp [posLost_of_zoneAt ((zoneAt_eq_some_iff distinct).mpr bound), lost]

/-- R136: the positions of the records that entered LOST in the round and have left it. -/
def leftPositions (s : State) (f : FPort) : List Pos :=
  (boundPositions s f).filter fun p => posFlagged s f p && !posLost s f p

theorem mem_leftPositions (distinct : BindingsDistinct s) :
    p ∈ leftPositions s f ↔
      ∃ z, (s.zone z).binding = some ⟨f, p⟩ ∧ (s.remote z).lostThisRound = true ∧ (s.remote z).state ≠ .lost :=
  mem_boundPositions_filter (holds := fun r => r.lostThisRound = true ∧ r.state ≠ .lost) distinct fun p z h => by
    simp [posFlagged_of_zoneAt h, posLost_of_zoneAt h]

/-! ### The break of a chain (R136 case 3) -/

/-- R136 case 3: the lowest bound position from which every bound position up is LOST. -/
theorem breakStart_eq_some_iff {k : Pos} :
    breakStart s f = some k ↔
      k ∈ boundPositions s f ∧ (∀ p ∈ boundPositions s f, k ≤ p → posLost s f p = true) ∧
        ∀ j ∈ boundPositions s f, j < k → ∃ p ∈ boundPositions s f, j ≤ p ∧ ¬ posLost s f p = true := by
  have up : ∀ j p, (decide (p < j) || posLost s f p) = true ↔ (j ≤ p → posLost s f p = true) := fun j p => by
    rw [Bool.or_eq_true, decide_eq_true_eq, ← not_le, imp_iff_not_or]
  simp only [breakStart, find?_ordered (fun h => not_lt_of_gt h) (boundPositions_ascending s f), ← Bool.not_eq_true,
    List.all_eq_true, up, not_forall, exists_prop]

/-- The last of an ascending list is its highest. -/
theorem getLast?_ascending {l : List Pos} (ascending : l.Pairwise (· < ·)) {q : Pos} :
    l.getLast? = some q ↔ q ∈ l ∧ ∀ p ∈ l, p ≤ q := by
  rw [List.getLast?_eq_some_iff]
  constructor
  · rintro ⟨front, rfl⟩
    obtain ⟨-, -, ahead⟩ := List.pairwise_append.mp ascending
    refine ⟨by simp, fun p hp => ?_⟩
    rcases List.mem_append.mp hp with hp | hp
    · exact le_of_lt (ahead p hp q (by simp))
    · exact le_of_eq (List.mem_singleton.mp hp)
  · rintro ⟨mem, highest⟩
    obtain ⟨front, back, rfl⟩ := List.append_of_mem mem
    obtain ⟨-, behind, -⟩ := List.pairwise_append.mp ascending
    cases back with
    | nil => exact ⟨front, rfl⟩
    | cons p rest =>
      exact absurd (highest p (by simp)) (not_le_of_gt (List.rel_of_pairwise_cons behind (by simp)))

theorem breakTest_eq (s : State) (f : FPort) (results : List (Pos × Bool)) (k : Pos) :
    breakTest s f results k =
      (((lossGroup s f).all fun p => decide (k ≤ p)) &&
        ((boundPositions s f).filter fun p => decide (p < k)).getLast?.any fun p => results.contains (p, true)) := by
  unfold breakTest
  cases ((boundPositions s f).filter fun p => decide (p < k)).getLast? <;> rfl

/-- R136 case 3: the group lies at the break or above, and the highest bound position below the break answered. -/
theorem breakTest_iff {results : List (Pos × Bool)} {k : Pos} :
    breakTest s f results k = true ↔
      (∀ p ∈ lossGroup s f, k ≤ p) ∧
        ∃ q ∈ boundPositions s f, q < k ∧ (∀ p ∈ boundPositions s f, p < k → p ≤ q) ∧ (q, true) ∈ results := by
  have highest : ∀ q, ((boundPositions s f).filter fun p => decide (p < k)).getLast? = some q ↔
      (q ∈ boundPositions s f ∧ q < k) ∧ ∀ p ∈ boundPositions s f, p < k → p ≤ q := fun q => by
    rw [getLast?_ascending ((boundPositions_ascending s f).filter _)]
    simp only [List.mem_filter, decide_eq_true_eq, and_imp]
  rw [breakTest_eq, Bool.and_eq_true, List.all_eq_true, Option.any_eq_true]
  simp only [decide_eq_true_eq, List.contains_eq_mem, highest, and_assoc]

end

/-! ### What a round end writes (R136, log 22) -/

/-- R136: one REMOTE_LOST for each position, in their order. -/
def lostEntries (s : State) (f : FPort) (ps : List Pos) : List Entry :=
  (ps.filterMap (zoneAt s f)).map fun z => { kind := .remoteLost, time := s.seconds, vis := .all, zone := some z }

theorem logLost_unbound {f : FPort} {p : Pos} {x : State} (ps : List Pos) (h : zoneAt x f p = none) :
    logLost f (p :: ps) x = logLost f ps x := by
  simp only [logLost, List.foldl_cons, h]

theorem logLost_bound {f : FPort} {p : Pos} {x : State} {z : Zone} (ps : List Pos) (h : zoneAt x f p = some z) :
    logLost f (p :: ps) x =
      logLost f ps (appendLog { kind := .remoteLost, time := x.seconds, vis := .all, zone := some z } x) := by
  simp only [logLost, List.foldl_cons, h, logZone, logEntry]

/-- The entries of positions carry one time and name the zones bound before them, because an append leaves both. -/
theorem logLost_eq (f : FPort) (ps : List Pos) {s x : State} (zones : x.zones = s.zones) (seconds : x.seconds = s.seconds) :
    logLost f ps x = (lostEntries s f ps).foldl (fun a e => appendLog e a) x := by
  induction ps generalizing x with
  | nil => rfl
  | cons p rest ih =>
    cases at_p : zoneAt s f p with
    | none =>
      rw [logLost_unbound rest ((zoneAt_congr zones f p).trans at_p), lostEntries, List.filterMap_cons_none at_p]
      exact ih zones seconds
    | some z =>
      rw [logLost_bound rest ((zoneAt_congr zones f p).trans at_p), lostEntries, List.filterMap_cons_some at_p, seconds]
      exact ih (by rw [appendLog_eq]; exact zones) (by rw [appendLog_eq]; exact seconds)

/-- Changes the record of the zone bound at a position. -/
def modRemoteAt (f : FPort) (g : RemoteRec → RemoteRec) (s : State) (p : Pos) : State :=
  match zoneAt s f p with
  | some z => s.modRemote z g
  | none => s

theorem modRemoteAt_unbound {f : FPort} {s : State} {p : Pos} (h : zoneAt s f p = none) (g : RemoteRec → RemoteRec) :
    modRemoteAt f g s p = s := by
  simp only [modRemoteAt, h]

theorem modRemoteAt_bound {f : FPort} {s : State} {p : Pos} {z : Zone} (h : zoneAt s f p = some z)
    (g : RemoteRec → RemoteRec) : modRemoteAt f g s p = s.modRemote z g := by
  simp only [modRemoteAt, h]

theorem markBehind_foldl (f : FPort) (ps : List Pos) (s : State) :
    markBehind f ps s = ps.foldl (modRemoteAt f fun r => { r with behindBreak := true }) s := rfl

theorem clearLost_foldl (f : FPort) (s : State) :
    clearLost f s = (boundPositions s f).foldl (modRemoteAt f fun r => { r with lostThisRound := false }) s := rfl

section

variable (f : FPort) {g : RemoteRec → RemoteRec} (once : ∀ r, g (g r) = g r) (ps : List Pos)
include once

/-- A change of the records of the zones at several positions, which is one change however often a position comes. -/
theorem foldl_modRemoteAt_remote (s : State) (z : Zone) :
    (ps.foldl (modRemoteAt f g) s).remote z = if ∃ p ∈ ps, zoneAt s f p = some z then g (s.remote z) else s.remote z := by
  induction ps generalizing s with
  | nil => simp
  | cons p rest ih =>
    rw [List.foldl_cons]
    cases at_p : zoneAt s f p with
    | none =>
      simp only [modRemoteAt_unbound at_p, ih, List.exists_mem_cons_iff, at_p, reduceCtorEq, false_or]
    | some y =>
      have still : zoneAt (s.modRemote y g) f = zoneAt s f := funext (zoneAt_congr rfl f)
      simp only [modRemoteAt_bound at_p, ih, still, List.exists_mem_cons_iff, at_p, Option.some.injEq]
      by_cases here : y = z
      · subst here
        simp [once]
      · simp [here, State.remote_modRemote_ne s y z g here]

/-- R136: a mark on the records bound at positions of a port, in a state that has the zones of `s`. -/
theorem foldl_modRemoteAt_eq {s x : State} (distinct : BindingsDistinct s) (zones : x.zones = s.zones) :
    ps.foldl (modRemoteAt f g) x =
      { x with
        remotes :=
          tmapIdx (fun z r => if ∃ p ∈ ps, (s.zone z).binding = some ⟨f, p⟩ then g r else r) x.remotes } := by
  have remotes : (ps.foldl (modRemoteAt f g) x).remotes =
      tmapIdx (fun z r => if ∃ p ∈ ps, (s.zone z).binding = some ⟨f, p⟩ then g r else r) x.remotes :=
    table_ext _ _ fun z => by
      simp only [tget_tmapIdx, ← zoneAt_eq_some_iff distinct, ← zoneAt_congr zones]
      exact foldl_modRemoteAt_remote f once ps x z
  rw [← remotes]
  refine foldl_kept (P := fun a => a = { x with remotes := a.remotes }) (fun a p h => ?_) ps rfl
  unfold modRemoteAt
  split
  · rw [h]
    rfl
  · exact h

end

theorem markBehind_eq {s x : State} (distinct : BindingsDistinct s) (zones : x.zones = s.zones) (f : FPort) (ps : List Pos) :
    markBehind f ps x =
      { x with
        remotes := tmapIdx
          (fun z r => if ∃ p ∈ ps, (s.zone z).binding = some ⟨f, p⟩ then { r with behindBreak := true } else r)
          x.remotes } :=
  foldl_modRemoteAt_eq f (g := fun r => { r with behindBreak := true }) (fun _ => rfl) ps distinct zones

/-- A zone bound to a port stands at one of its bound positions. -/
theorem bound_to_port_iff {s : State} {f : FPort} {z : Zone} :
    (∃ p ∈ boundPositions s f, (s.zone z).binding = some ⟨f, p⟩) ↔ (s.zone z).binding.map Binding.port = some f := by
  rw [Option.map_eq_some_iff]
  constructor
  · rintro ⟨p, -, bound⟩
    exact ⟨_, bound, rfl⟩
  · rintro ⟨b, bound, rfl⟩
    exact ⟨b.pos, mem_boundPositions.mpr ⟨z, bound⟩, bound⟩

theorem clearLost_eq {s x : State} (distinct : BindingsDistinct s) (zones : x.zones = s.zones) (f : FPort) :
    clearLost f x =
      { x with
        remotes := tmapIdx
          (fun z r => if (s.zone z).binding.map Binding.port = some f then { r with lostThisRound := false } else r)
          x.remotes } := by
  rw [clearLost_foldl, foldl_modRemoteAt_eq f (g := fun r => { r with lostThisRound := false }) (fun _ => rfl) _ distinct zones,
    boundPositions_congr zones]
  simp only [bound_to_port_iff]

/-! ### The entries of the group (R136) -/

section

variable {s : State} {f : FPort} {results : List (Pos × Bool)}

theorem groupEntries_none (empty : lossGroup s f = []) : groupEntries f results s = s :=
  if_pos (by rw [empty]; rfl)

variable (losses : lossGroup s f ≠ [])
include losses

theorem groupEntries_portDown (down : ∀ p ∈ boundPositions s f, posLost s f p = true) :
    groupEntries f results s =
      appendLog
        { kind := .portDown, time := s.seconds, vis := .all, port := some f, count := some (boundPositions s f).length } s := by
  have all : (boundPositions s f).all (posLost s f) = true := List.all_eq_true.mpr down
  simp only [groupEntries, List.isEmpty_iff, losses, all, if_false, if_true, logEntry]

variable (up : ¬ ∀ p ∈ boundPositions s f, posLost s f p = true)
include up

omit losses in
theorem notAll_lost : (boundPositions s f).all (posLost s f) = false :=
  Bool.eq_false_iff.mpr fun all => up (List.all_eq_true.mp all)

/-- R136 case 3: a break that stands. -/
theorem groupEntries_chainBreak (distinct : BindingsDistinct s) {k : Pos} (start : breakStart s f = some k)
    (stands : breakTest s f results k = true) :
    groupEntries f results s =
      { [({ kind := .chainBreak, time := s.seconds, vis := .all, port := some f, pos := some k,
            count := some ((boundPositions s f).countP fun p => decide (k ≤ p)) } : Entry)].foldl
          (fun a e => appendLog e a) s with
        remotes := tmapIdx
          (fun z r =>
            if ∃ p ∈ lossGroup s f, (s.zone z).binding = some ⟨f, p⟩ then { r with behindBreak := true } else r)
          s.remotes } := by
  simp only [groupEntries, List.isEmpty_iff, losses, notAll_lost up, Bool.false_eq_true, if_false, start, stands, if_true,
    logEntry, ← List.countP_eq_length_filter, List.foldl_cons, List.foldl_nil]
  rw [markBehind_eq distinct (by rw [appendLog_eq]), appendLog_eq]

/-- R136 case 4: no break stands. -/
theorem groupEntries_lost (noBreak : ∀ k, breakStart s f = some k → breakTest s f results k = false) :
    groupEntries f results s = (lostEntries s f (lossGroup s f)).foldl (fun a e => appendLog e a) s := by
  rw [← logLost_eq f (lossGroup s f) rfl rfl]
  cases start : breakStart s f with
  | none => simp only [groupEntries, List.isEmpty_iff, losses, notAll_lost up, Bool.false_eq_true, if_false, start]
  | some k =>
    simp only [groupEntries, List.isEmpty_iff, losses, notAll_lost up, Bool.false_eq_true, if_false, start, noBreak k start]

end

/-- The entries of the group leave the zones and the seconds counter. -/
theorem groupEntries_kept (f : FPort) (results : List (Pos × Bool)) (s : State) :
    (groupEntries f results s).zones = s.zones ∧ (groupEntries f results s).seconds = s.seconds := by
  have append : ∀ e x, (appendLog e x).zones = x.zones ∧ (appendLog e x).seconds = x.seconds := fun e x => by
    rw [appendLog_eq]
    exact ⟨rfl, rfl⟩
  have logs : ∀ ps x, (logLost f ps x).zones = x.zones ∧ (logLost f ps x).seconds = x.seconds := fun ps x => by
    rw [logLost_eq f ps rfl rfl]
    exact ⟨foldl_keeps State.zones _ (fun a e => (append e a).1) _ x, foldl_keeps State.seconds _ (fun a e => (append e a).2) _ x⟩
  have marks : ∀ ps x, (markBehind f ps x).zones = x.zones ∧ (markBehind f ps x).seconds = x.seconds := fun ps x => by
    rw [markBehind_foldl]
    exact ⟨foldl_keeps State.zones _ (fun a p => by unfold modRemoteAt; split <;> rfl) ps x,
      foldl_keeps State.seconds _ (fun a p => by unfold modRemoteAt; split <;> rfl) ps x⟩
  unfold groupEntries
  dsimp only
  split
  · exact ⟨rfl, rfl⟩
  · split
    · exact append _ s
    · split
      · split
        · exact ⟨(marks _ _).1.trans (append _ s).1, (marks _ _).2.trans (append _ s).2⟩
        · exact logs _ s
      · exact logs _ s

/-- R136, log 22: a round end: the entries of the group, then those of the records that have left LOST, and the flags
cleared. -/
theorem roundEnd_eq {s : State} (distinct : BindingsDistinct s) (f : FPort) (results : List (Pos × Bool)) :
    roundEnd f results s =
      { (lostEntries s f (leftPositions s f)).foldl (fun a e => appendLog e a) (groupEntries f results s) with
        remotes := tmapIdx
          (fun z r => if (s.zone z).binding.map Binding.port = some f then { r with lostThisRound := false } else r)
          (groupEntries f results s).remotes } := by
  obtain ⟨zones, seconds⟩ := groupEntries_kept f results s
  have remotes : ∀ es x, (List.foldl (fun a e => appendLog e a) x es : State).remotes = x.remotes := fun es x =>
    foldl_keeps State.remotes _ (fun a e => by rw [appendLog_eq]) es x
  have logged : ((lostEntries s f (leftPositions s f)).foldl (fun a e => appendLog e a) (groupEntries f results s)).zones =
      s.zones := (foldl_keeps State.zones _ (fun a e => by rw [appendLog_eq]) _ _).trans zones
  rw [← remotes (lostEntries s f (leftPositions s f)) (groupEntries f results s), ← clearLost_eq distinct logged,
    ← logLost_eq f _ zones seconds]
  rfl

end Sys2Proof.Machine

namespace Sys2Proof.Machine.Settled

/-- Settles O50: the cases of the group (`groupEntries_none` to `groupEntries_lost`) by where a chain breaks
(`breakStart_eq_some_iff`, `breakTest_iff`), and `roundEnd_eq`. -/
theorem roundEnd : Obligations.RoundEnd := by
  intro s f results distinct
  have down : (∀ p ∈ boundPositions s f, posLost s f p = true) ↔
      ∀ p ∈ boundPositions s f, ∃ z, (s.zone z).binding = some ⟨f, p⟩ ∧ (s.remote z).state = .lost := by
    simp only [posLost_iff distinct]
  refine ⟨fun p => mem_lossGroup distinct, (boundPositions_ascending s f).filter _, fun p z => zoneAt_eq_some_iff distinct,
    groupEntries_none, fun losses all => groupEntries_portDown losses (down.mpr all), fun k losses up breaks => ?_,
    fun losses up noBreak => groupEntries_lost losses (mt down.mp up) fun k start => ?_,
    leftPositions s f, fun p => mem_leftPositions distinct, (boundPositions_ascending s f).filter _,
    roundEnd_eq distinct f results⟩
  · obtain ⟨tail, test⟩ := breaks
    refine groupEntries_chainBreak losses (mt down.mp up) distinct (breakStart_eq_some_iff.mpr ?_) (breakTest_iff.mpr test)
    simpa only [posLost_iff distinct] using tail
  · refine Bool.eq_false_iff.mpr fun stands => noBreak k ⟨?_, breakTest_iff.mp stands⟩
    simpa only [posLost_iff distinct] using breakStart_eq_some_iff.mp start

end Sys2Proof.Machine.Settled

namespace Sys2Proof.Machine

/-! ### The copies of a page write (R154) -/

/-- A fold that changes entries of a table, each named once, changes an entry that it names by its own change. -/
theorem foldl_tmod_of_mem {α β : Type} {n : Nat} (g : β → α → α) {l : List (Fin n × β)} (keys : (l.map Prod.fst).Nodup)
    (v : Vector α n) {i : Fin n} {b : β} (mem : (i, b) ∈ l) :
    tget (l.foldl (fun v y => tmod v y.1 (g y.2)) v) i = g b (tget v i) := by
  induction l generalizing v with
  | nil => cases mem
  | cons y rest ih =>
    obtain ⟨fresh, keys⟩ := List.nodup_cons.mp keys
    rw [List.foldl_cons]
    rcases List.mem_cons.mp mem with rfl | mem
    · rcases foldl_tmod_cases g rest (tmod v i (g b)) i with ⟨c, _, again, _⟩ | ⟨_, same⟩
      · exact absurd (List.mem_map.mpr ⟨_, again, rfl⟩) fresh
      · rw [same, tget_tmod_same]
    · have other : y.1 ≠ i := fun e => fresh (e ▸ List.mem_map.mpr ⟨_, mem, rfl⟩)
      rw [ih keys _ mem, tget_tmod_ne _ _ _ _ other]

/-- R154: a zone after the copies: the record of its place in the page, or its own. -/
def pageCopy (p : PageNo) (rs : List StoreRecord) (z : Zone) (r : ZoneRec) : ZoneRec :=
  match (if z.val / 8 = p.val then rs[z.val % 8]? else none) with
  | some x => copyRecord x r
  | none => r

/-- R154: the zones after the copies of a page. -/
def copiedZones (p : PageNo) (rs : List StoreRecord) (zones : Vector ZoneRec 48) : Vector ZoneRec 48 :=
  tmapIdx (pageCopy p rs) zones

section

variable {p : PageNo} {rs : List StoreRecord}

theorem pageOfZone_eq_iff {z : Zone} : pageOfZone z = p ↔ z.val / 8 = p.val := Fin.ext_iff

theorem pageCopy_at {z : Zone} {x : StoreRecord} (page : pageOfZone z = p) (at_x : rs[z.val % 8]? = some x) (r : ZoneRec) :
    pageCopy p rs z r = copyRecord x r := by
  rw [pageCopy, if_pos (pageOfZone_eq_iff.mp page), at_x]

theorem pageCopy_outside {z : Zone} (page : pageOfZone z ≠ p) (r : ZoneRec) : pageCopy p rs z r = r := by
  rw [pageCopy, if_neg (mt pageOfZone_eq_iff.mpr page)]

theorem zonesOfPage_nodup (p : PageNo) : (zonesOfPage p).Nodup :=
  (List.nodup_finRange 8).map fun i j h => Fin.ext (by simpa using h)

theorem copyRecords_copied (full : rs.length = 8) (s : State) :
    copyRecords p rs s = { s with zones := copiedZones p rs s.zones } := by
  have keys : ((zonesOfPage p).zip rs).map Prod.fst = zonesOfPage p := List.map_fst_zip (by rw [full]; simp [zonesOfPage])
  have zones : ((zonesOfPage p).zip rs).foldl (fun v y => tmod v y.1 (copyRecord y.2)) s.zones = copiedZones p rs s.zones :=
    table_ext _ _ fun z => by
      rw [copiedZones, tget_tmapIdx]
      by_cases page : pageOfZone z = p
      · have held : rs[z.val % 8]? = some rs[z.val % 8] := List.getElem?_eq_getElem _
        rw [pageCopy_at page held]
        exact foldl_tmod_of_mem copyRecord (by rw [keys]; exact zonesOfPage_nodup p) _ (mem_zip_zonesOfPage.mpr ⟨page, held⟩)
      · rw [pageCopy_outside page]
        rcases foldl_tmod_cases copyRecord ((zonesOfPage p).zip rs) s.zones z with ⟨b, _, mem, _⟩ | ⟨_, same⟩
        · exact absurd (mem_zip_zonesOfPage.mp mem).1 page
        · exact same
  rw [copyRecords_eq, zones]

end

/-! ### Changed bindings (R120) -/

theorem rebind_eq (z : Zone) (s : State) :
    rebind z s =
      { s with remotes := (rebind z s).remotes, cells := (rebind z s).cells, moves := (rebind z s).moves } := by
  unfold rebind
  dsimp only
  split <;> rfl

theorem rebind_remote (z : Zone) (s : State) (y : Zone) :
    (rebind z s).remote y = if z = y then startedRemote (s.zone y) else s.remote y := by
  have kept : (rebind z s).remote y =
      (s.modRemote z fun _ =>
        { RemoteRec.unbound with
          state := if (s.zone z).binding.isSome then RemoteState.searching else .unbound }).remote y := by
    unfold rebind
    dsimp only
    split <;> rfl
  rw [kept]
  by_cases here : z = y
  · subst here
    rw [State.remote_modRemote_same, if_pos rfl]
    rfl
  · rw [State.remote_modRemote_ne _ _ _ _ here, if_neg here]

theorem rebind_cell (z : Zone) (s : State) (y : Zone) (u : Tenant) :
    (rebind z s).cell y u =
      if z = y ∧ inService s y = true then { s.cell y u with home := (s.cell y u).target, occupancy := 0 }
      else s.cell y u := by
  unfold rebind
  dsimp only
  by_cases here : z = y
  · subst here
    cases service : inService s z with
    | true => simp [outage_cell]
    | false => simp
  · split
    · simp [outage_cell, here]
    · simp [here]

theorem rebind_moves (z : Zone) (s : State) :
    (rebind z s).moves = s.moves.filter fun m => !(decide (m.zone = z) && inService s m.zone) := by
  unfold rebind
  dsimp only
  split
  · next service =>
    rw [outage_moves]
    refine List.filter_congr fun m _ => ?_
    by_cases here : m.zone = z
    · simp [here, service]
    · simp [here]
  · next out =>
    refine (List.filter_eq_self.mpr fun m _ => ?_).symm
    by_cases here : m.zone = z
    · simp [here, out]
    · simp [here]

theorem inService_rebind_ne {z y : Zone} (other : z ≠ y) (s : State) : inService (rebind z s) y = inService s y := by
  simp only [inService, rebind_remote, if_neg other]

section

variable {zs : List Zone} (once : zs.Nodup) (s : State)

/-- Several changed bindings: the remotes of the zones, their cells and moves where they were in service, and no more. -/
theorem foldl_rebind_eq :
    zs.foldl (fun a z => rebind z a) s =
      { s with
        remotes := (zs.foldl (fun a z => rebind z a) s).remotes
        cells := (zs.foldl (fun a z => rebind z a) s).cells
        moves := (zs.foldl (fun a z => rebind z a) s).moves } := by
  refine foldl_kept (P := fun a => a = { s with remotes := a.remotes, cells := a.cells, moves := a.moves })
    (fun a z h => ?_) zs rfl
  rw [rebind_eq z a, h]

theorem foldl_rebind_remote (y : Zone) :
    (zs.foldl (fun a z => rebind z a) s).remote y = if y ∈ zs then startedRemote (s.zone y) else s.remote y := by
  induction zs generalizing s with
  | nil => simp
  | cons z rest ih =>
    have zone : (rebind z s).zone y = s.zone y := congrArg (fun v => tget v y) (rebind_zones z s)
    rw [List.foldl_cons, ih, zone, rebind_remote]
    by_cases later : y ∈ rest
    · simp [later]
    · simp [later, eq_comm]

include once

theorem foldl_rebind_cell (y : Zone) (u : Tenant) :
    (zs.foldl (fun a z => rebind z a) s).cell y u =
      if y ∈ zs ∧ inService s y = true then { s.cell y u with home := (s.cell y u).target, occupancy := 0 }
      else s.cell y u := by
  induction zs generalizing s with
  | nil => simp
  | cons z rest ih =>
    obtain ⟨fresh, once⟩ := List.nodup_cons.mp once
    rw [List.foldl_cons, ih once, rebind_cell]
    by_cases here : z = y
    · subst here
      simp [fresh]
    · simp [here, Ne.symm here, inService_rebind_ne here]

theorem foldl_rebind_moves :
    (zs.foldl (fun a z => rebind z a) s).moves = s.moves.filter fun m => !(decide (m.zone ∈ zs) && inService s m.zone) := by
  induction zs generalizing s with
  | nil => simp
  | cons z rest ih =>
    obtain ⟨fresh, once⟩ := List.nodup_cons.mp once
    rw [List.foldl_cons, ih once, rebind_moves, List.filter_filter]
    refine List.filter_congr fun m _ => ?_
    by_cases here : m.zone = z
    · simp [here, fresh]
    · simp [here, inService_rebind_ne (Ne.symm here)]

end

/-- R120: the zones of a page whose binding differs, one after another. -/
theorem rebindPage_foldl (before : State) (p : PageNo) (s : State) :
    rebindPage before p s =
      ((zonesOfPage p).filter fun z => (before.zone z).binding != (s.zone z).binding).foldl (fun a z => rebind z a) s := by
  have walk : ∀ (zs : List Zone) (x : State), x.zones = s.zones →
      zs.foldl (fun a z => if (before.zone z).binding = (a.zone z).binding then a else rebind z a) x =
        (zs.filter fun z => (before.zone z).binding != (s.zone z).binding).foldl (fun a z => rebind z a) x := by
    intro zs
    induction zs with
    | nil => exact fun _ _ => rfl
    | cons z rest ih =>
      intro x zones
      have zone : x.zone z = s.zone z := congrArg (fun v => tget v z) zones
      rw [List.foldl_cons, zone]
      by_cases same : (before.zone z).binding = (s.zone z).binding
      · rw [if_pos same, List.filter_cons_of_neg (by simp [same])]
        exact ih x zones
      · rw [if_neg same, List.filter_cons_of_pos (by simpa using same), List.foldl_cons]
        exact ih _ ((rebind_zones z x).trans zones)
  exact walk _ s rfl

/-! ### The live part after a page write (R120, R154) -/

/-- R120: the binding of a zone differs from its copy. -/
def rebound (p : PageNo) (rs : List StoreRecord) (s : State) (z : Zone) : Bool :=
  (s.zone z).binding != (tget (copiedZones p rs s.zones) z).binding

section

variable {p : PageNo} {rs : List StoreRecord}

/-- A zone whose binding changed stands in the page. -/
theorem mem_rebound {s : State} {z : Zone} :
    (z ∈ (zonesOfPage p).filter fun z => (s.zone z).binding != (tget (copiedZones p rs s.zones) z).binding) ↔
      rebound p rs s z = true := by
  rw [List.mem_filter, mem_zonesOfPage]
  refine ⟨And.right, fun changed => ⟨?_, changed⟩⟩
  by_contra page
  have same : tget (copiedZones p rs s.zones) z = s.zone z :=
    (tget_tmapIdx _ _ _).trans (pageCopy_outside page _)
  simp [rebound, same] at changed

/-- R120, R154: the part after the copies of a page and the changed bindings, before its passes. -/
def written (p : PageNo) (rs : List StoreRecord) (s : State) : State :=
  { s with
    zones := copiedZones p rs s.zones
    remotes := tmapIdx
      (fun z r =>
        if rebound p rs s z = true then
          { RemoteRec.unbound with
            state := if (tget (copiedZones p rs s.zones) z).binding = none then .unbound else .searching }
        else r)
      s.remotes
    cells := tmapIdx
      (fun z row => tmapIdx
        (fun _ (c : Cell) =>
          if (rebound p rs s z && inService s z) = true then { c with home := c.target, occupancy := 0 } else c) row)
      s.cells
    moves := s.moves.filter fun m => !(rebound p rs s m.zone && inService s m.zone) }

theorem rebindPage_written (full : rs.length = 8) (s : State) : rebindPage s p (copyRecords p rs s) = written p rs s := by
  rw [copyRecords_copied full, rebindPage_foldl]
  let x : State := { s with zones := copiedZones p rs s.zones }
  let zs := (zonesOfPage p).filter fun z => (s.zone z).binding != (x.zone z).binding
  have once : zs.Nodup := (zonesOfPage_nodup p).filter _
  have mem : ∀ z, z ∈ zs ↔ rebound p rs s z = true := fun _ => mem_rebound
  have remotes : (zs.foldl (fun a z => rebind z a) x).remotes = (written p rs s).remotes := table_ext _ _ fun z => by
    refine (foldl_rebind_remote x z).trans ?_
    simp only [mem, startedRemote_eq, written, tget_tmapIdx]
    rfl
  have cells : (zs.foldl (fun a z => rebind z a) x).cells = (written p rs s).cells :=
    table_ext _ _ fun z => table_ext _ _ fun u => by
      refine (foldl_rebind_cell once x z u).trans ?_
      simp only [mem, written, tget_tmapIdx, Bool.and_eq_true]
      rfl
  have moves : (zs.foldl (fun a z => rebind z a) x).moves = (written p rs s).moves := by
    refine (foldl_rebind_moves once x).trans (List.filter_congr fun m _ => ?_)
    simp only [mem, Bool.decide_eq_true]
    rfl
  exact (foldl_rebind_eq x).trans (by rw [remotes, cells, moves]; rfl)

/-- R154: a page write has a pass at every zone whose limits, class or binding it changed. -/
theorem liveWrite_passed (full : rs.length = 8) (s : State) :
    Passed
      (fun z =>
        (s.zone z).ceiling ≠ (tget (copiedZones p rs s.zones) z).ceiling ∨
          (s.zone z).live ≠ (tget (copiedZones p rs s.zones) z).live ∨
          (s.zone z).cls ≠ (tget (copiedZones p rs s.zones) z).cls ∨ rebound p rs s z = true)
      (written p rs s) (liveWrite p rs s) := by
  have live : liveWrite p rs s = passes (copyChanged s (written p rs s)) (written p rs s) := by
    rw [liveWrite, rebindPage_written full]
  rw [live]
  refine passed_congr (passes_passed _ _) fun z => ?_
  have zone : (written p rs s).zone z = tget (copiedZones p rs s.zones) z := rfl
  simp only [copyChanged, zone, rebound, Bool.or_eq_true, bne_iff_ne, or_assoc]

end

/-! ### The completions of the store operations (R154, R156, log 3 and 10) -/

theorem writeCompletion_idle {s : State} (idle : ∀ p records, s.storeOp ≠ some (.write p records)) : writeCompletion s = s := by
  unfold writeCompletion
  split
  · next p records op => exact absurd op (idle p records)
  · rfl

theorem lockCompletion_idle {s : State} (idle : ∀ p, s.storeOp ≠ some (.lock p)) : lockCompletion s = s := by
  unfold lockCompletion
  split
  · next p op => exact absurd op (idle p)
  · rfl

theorem lockCompletion_locks {s : State} {p : PageNo} (op : s.storeOp = some (.lock p)) :
    lockCompletion s =
      gainStoreDone
        { s with pages := tset s.pages p (sealPage (lockedOctets (tget s.pages p).octets)), storeOp := none } := by
  simp only [lockCompletion, op]
  rfl

/-- R154: the store once a page write is complete. -/
def pageWritten (p : PageNo) (records : Vector Byte 32) (s : State) : State :=
  { s with pages := tset s.pages p (sealPage (writtenOctets records)), storeOp := none }

section

variable {s : State} {p : PageNo} {records : Vector Byte 32} (op : s.storeOp = some (.write p records))
include op

theorem writeCompletion_starting (starting : s.starting = true) :
    writeCompletion s = gainStoreDone (pageWritten p records s) := by
  simp only [writeCompletion, op, starting, if_true, pageWritten]

theorem writeCompletion_live (running : s.starting = false) {rs : List StoreRecord}
    (held : recordsOf records.toList = some rs) :
    writeCompletion s = finish s (gainStoreDone (liveWrite p rs (pageWritten p records s))) := by
  simp only [writeCompletion, op, running, Bool.false_eq_true, if_false, held, Option.getD_some, pageWritten]

end

end Sys2Proof.Machine

namespace Sys2Proof.Machine.Settled

/-- Settles O54: the completions that change nothing, the lock, the write in start-up, and the live part of a write
(`liveWrite_passed`) with its close. -/
theorem storeCompletions : Obligations.StoreCompletions := by
  intro s
  refine ⟨fun idle => congrArg Host.Outcome.next (writeCompletion_idle idle),
    fun idle => congrArg Host.Outcome.next (lockCompletion_idle idle),
    fun p op => congrArg Host.Outcome.next (lockCompletion_locks op),
    fun p records op => ⟨fun starting => congrArg Host.Outcome.next (writeCompletion_starting op starting),
      fun running rs held => ?_⟩⟩
  have full : rs.length = 8 := by simpa using (recordsOf_spec _ held).1
  exact ⟨_, _, congrArg Host.Outcome.next (writeCompletion_live op running held), finish_closed s _ _ fun _ => rfl,
    (liveWrite_passed full (pageWritten p records s)).modPort .venue fun q => { q with storeDone := true }⟩

end Sys2Proof.Machine.Settled

namespace Sys2Proof.Machine

/-! ### The entry that a reader reads (R146) -/

theorem firstVisible_none {p : Port} {l : List Entry} (unseen : ∀ e ∈ l, visibleTo p e = false) (i : Nat) :
    firstVisible p l i = none := by
  induction l generalizing i with
  | nil => rfl
  | cons d rest ih =>
    obtain ⟨hd, hrest⟩ := List.forall_mem_cons.mp unseen
    rw [firstVisible, hd]
    exact ih hrest (i + 1)

theorem firstVisible_some {p : Port} {l : List Entry} {j : Nat} {e : Entry} (at_j : l[j]? = some e)
    (visible : visibleTo p e = true) (unseen : ∀ k d, k < j → l[k]? = some d → visibleTo p d = false) (i : Nat) :
    firstVisible p l i = some (i + j, e) := by
  induction l generalizing i j with
  | nil => simp at at_j
  | cons d rest ih =>
    cases j with
    | zero =>
      obtain rfl : d = e := by simpa using at_j
      rw [firstVisible, if_pos visible]
      rfl
    | succ j =>
      have hd : visibleTo p d = false := unseen 0 d (Nat.succ_pos j) rfl
      rw [firstVisible, hd]
      have found := ih (j := j) at_j (fun k d' hk => unseen (k + 1) d' (Nat.succ_lt_succ hk)) (i + 1)
      simpa [Nat.add_assoc, Nat.add_comm 1 j] using found

/-- R146: the entry that a reader finds stands at or after its cursor in the log. -/
theorem firstVisible_from_cursor {p : Port} {l : List Entry} {c i : Nat} {e : Entry} (le : c ≤ i)
    (at_i : l[i]? = some e) (visible : visibleTo p e = true)
    (unseen : ∀ j d, c ≤ j → j < i → l[j]? = some d → visibleTo p d = false) :
    firstVisible p (l.drop c) c = some (i, e) := by
  obtain ⟨k, rfl⟩ := Nat.exists_eq_add_of_le le
  refine firstVisible_some (by rwa [List.getElem?_drop]) visible (fun j d hj at_j => ?_) c
  exact unseen (c + j) d (Nat.le_add_right c j) (Nat.add_lt_add_left hj c) (by rwa [List.getElem?_drop] at at_j)

theorem firstVisible_none_from_cursor {p : Port} {l : List Entry} {c : Nat}
    (unseen : ∀ j d, c ≤ j → l[j]? = some d → visibleTo p d = false) : firstVisible p (l.drop c) c = none := by
  refine firstVisible_none (fun d mem => ?_) c
  obtain ⟨k, at_k⟩ := List.mem_iff_getElem?.mp mem
  rw [List.getElem?_drop] at at_k
  exact unseen (c + k) d (Nat.le_add_right c k) at_k

theorem readLog_found {p : Port} {r : Reader} {s : State} {i : Nat} {e : Entry}
    (found : firstVisible p (s.log.drop r.cursor) r.cursor = some (i, e)) :
    readLog p r s = (faultReply e r.lost, evalLog p (s.setReader p ⟨i + 1, 0⟩)) := by
  rw [readLog, found]

theorem readLog_none {p : Port} {r : Reader} {s : State}
    (found : firstVisible p (s.log.drop r.cursor) r.cursor = none) :
    readLog p r s = (faultReplyNone s.seconds r.lost, evalLog p (s.setReader p ⟨s.log.length, 0⟩)) := by
  rw [readLog, found]

/-- 11.3: a reply to READ FAULT is 16 octets. -/
theorem faultReply_length (e : Entry) (lost : Nat) : (faultReply e lost).length = 16 := by
  have count : (countOr e.count).length = 2 := by cases e.count <;> rfl
  simp [faultReply, count]

theorem faultReplyNone_length (time : BitVec 32) (lost : Nat) : (faultReplyNone time lost).length = 16 := rfl

/-! ### READ FAULT at a port (R146 to R148) -/

theorem setReader_modPort (s : State) (p q : Port) (r : Reader) (g : PortRec → PortRec) :
    (s.modPort p g).setReader q r = (s.setReader q r).modPort p g := by cases q <;> rfl

theorem reader_modPort (s : State) (p q : Port) (g : PortRec → PortRec) : (s.modPort p g).reader q = s.reader q := by
  cases q <;> rfl

theorem port_setReader (s : State) (p q : Port) (r : Reader) : (s.setReader p r).port q = s.port q := by
  cases p <;> rfl

/-- R148: a reader whose lost count is 0 has LOG where a visible entry stands at or after its cursor. -/
theorem logReasonOf_setReader (s : State) (p : Port) (n : Nat) (g : PortRec → PortRec) :
    logReasonOf ((s.setReader p ⟨n, 0⟩).modPort p g) p = (s.log.drop n).any (visibleTo p) := by
  have log : (s.setReader p ⟨n, 0⟩).log = s.log := by rw [setReader_eq]
  simp [logReasonOf, reader_modPort, reader_setReader, log]

/-- R165: READ FAULT is refused on the port of a VACANT tenant alone. -/
theorem refusalOf_readFault {s : State} {p : Port} (present : ∀ t, p = .tenant t → (s.tenant t).state ≠ .vacant) :
    refusalOf s p .readFault = none := by
  cases p with
  | venue => rfl
  | tenant t =>
    have here : admitted s t = true := by simpa [admitted] using present t rfl
    simp [refusalOf, commandKind, here]

/-- R146 to R148, R167: READ FAULT and the octets of its reply, where the read of the log gives `reply` and leaves the
cursor at `n`. -/
theorem clockBurst_readFault {s : State} {p : Port} {r : Reader} {n : Nat} {reply os : List Byte} (ready : Ready s p)
    (accepted : refusalOf s p .readFault = none) (reader : s.reader p = some r)
    (read : ∀ g, readLog p r (s.modPort p g) = (reply, evalLog p ((s.modPort p g).setReader p ⟨n, 0⟩)))
    (whole : os.length = reply.length) (some_octets : os ≠ []) :
    clockBurst .readFault p (Burst.whole os) s =
      (s.setReader p ⟨n, 0⟩).modPort p fun q =>
        { q with
          cmd := .reading (.reply reply) (some reply) reply.length
          lastCode := some (commandCode .readFault)
          result := .ok
          log := (s.log.drop n).any (visibleTo p)
          dataOut := firstOut p s :: reply } := by
  have ⟨starting, _, _, assembly⟩ := ready
  have taken : acceptCode p .readFault
      (s.modPort p fun q => { q with assembly := [], cmd := .idle, dataOut := [firstOut p s] }) =
      (s.setReader p ⟨n, 0⟩).modPort p fun q =>
        { q with
          assembly := []
          cmd := .reading (.reply reply) none 0
          lastCode := some (commandCode .readFault)
          result := .ok
          log := (s.log.drop n).any (visibleTo p)
          dataOut := [firstOut p s] } := by
    simp only [acceptCode, takeFault, setCodeResult, State.modPort_modPort, reader_modPort, reader, read, evalLog,
      setReader_modPort, logReasonOf_setReader, setCmd]
  have running : (s.setReader p ⟨n, 0⟩).starting = false := by rw [setReader_eq]; exact starting
  rw [clockBurst_accepted ready accepted, taken,
    takeOctets_reply (el := reply) (by simpa using running) (by simp) os whole some_octets, State.modPort_modPort]
  refine State.modPort_congr _ p ?_
  simp [port_setReader, assembly]

end Sys2Proof.Machine

namespace Sys2Proof.Machine.Settled

/-- Settles O13: what the reader finds (`firstVisible_from_cursor`), and the command at its port
(`clockBurst_readFault`). -/
theorem readFault : Obligations.ReadFault := by
  intro s p r os ready reader octets admitted
  have accepted := refusalOf_readFault admitted
  have some_octets : os ≠ [] := List.ne_nil_of_length_pos (by omega)
  refine ⟨fun i e le at_i visible unseen => ?_, fun unseen => ?_⟩
  · have found := firstVisible_from_cursor le at_i visible unseen
    have sent := clockBurst_readFault ready accepted reader (fun g => readLog_found found)
      (octets.trans (faultReply_length e r.lost).symm) some_octets
    rw [faultReply_length] at sent
    exact congrArg Host.Outcome.next sent
  · have found := firstVisible_none_from_cursor unseen
    have read : ∀ g, readLog p r (s.modPort p g) =
        (faultReplyNone s.seconds r.lost, evalLog p ((s.modPort p g).setReader p ⟨s.log.length, 0⟩)) := fun g =>
      readLog_none found
    have sent := clockBurst_readFault ready accepted reader read
      (octets.trans (faultReplyNone_length s.seconds r.lost).symm) some_octets
    rw [List.drop_length, faultReplyNone_length] at sent
    exact congrArg Host.Outcome.next sent

end Sys2Proof.Machine.Settled

namespace Sys2Proof.Machine

/-! ### The discard before an append (R144) -/

theorem discardOldest_room {s : State} (room : s.log.length < 64) : discardOldest s = s := by
  unfold discardOldest
  split
  · rfl
  · exact if_pos room

theorem discardOldest_full {s : State} {oldest : Entry} {rest : List Entry} (log : s.log = oldest :: rest)
    (full : ¬ s.log.length < 64) :
    (discardOldest s).log = rest ∧
      ∀ p, (discardOldest s).reader p = (s.reader p).map (readerAfterDiscard p oldest) := by
  have discarded : discardOldest s =
      { s with
        log := rest
        venueReader := readerAfterDiscard .venue oldest s.venueReader
        tenantReaders := tmapIdx (fun t r => r.map (readerAfterDiscard (.tenant t) oldest)) s.tenantReaders } := by
    simp only [discardOldest, log]
    exact if_neg (log ▸ full)
  rw [discarded]
  refine ⟨rfl, fun p => ?_⟩
  cases p with
  | venue => rfl
  | tenant t => simp [State.reader]

theorem discardOldest_log (s : State) :
    (discardOldest s).log = if s.log.length < 64 then s.log else s.log.drop 1 := by
  split
  · next room => rw [discardOldest_room room]
  · next full =>
    cases log : s.log with
    | nil => simp [log] at full
    | cons oldest rest => exact (discardOldest_full log full).1

/-- R143, R144: the reader of a port after an append: as it was where the log has room, and as the discard of the oldest
entry leaves it where the log is full. -/
theorem appendLog_reader_cases (e : Entry) (s : State) (p : Port) :
    (s.log.length < 64 ∧ (appendLog e s).reader p = s.reader p) ∨
      ∃ oldest, ¬ s.log.length < 64 ∧ s.log.head? = some oldest ∧
        (appendLog e s).reader p = (s.reader p).map (readerAfterDiscard p oldest) := by
  rw [appendLog_reader]
  by_cases room : s.log.length < 64
  · exact .inl ⟨room, by rw [discardOldest_room room]⟩
  · cases log : s.log with
    | nil => simp [log] at room
    | cons oldest rest => exact .inr ⟨oldest, log ▸ room, rfl, (discardOldest_full log room).2 p⟩

theorem appendLog_no_reader {s : State} {p : Port} (absent : s.reader p = none) (e : Entry) :
    (appendLog e s).reader p = none ∧ ((appendLog e s).port p).log = false := by
  have still : (appendLog e s).reader p = none := by
    rcases appendLog_reader_cases e s p with ⟨_, kept⟩ | ⟨_, _, _, moved⟩
    · rw [kept, absent]
    · rw [moved, absent]
      rfl
  exact ⟨still, by rw [appendLog_reason, logReasonOf, still]⟩

end Sys2Proof.Machine

namespace Sys2Proof.Machine.Settled

/-- Settles O52: the log after the discard (`discardOldest_log`), the readers (`appendLog_reader_cases`) and their
reasons (`appendLog_reason`); and the seconds counter. -/
theorem logAppend : Obligations.LogAppend := by
  refine ⟨fun e s _ => ?_, fun s => ⟨rfl, fun below => ?_, fun top => ?_⟩⟩
  · refine ⟨by rw [appendLog_log, discardOldest_log], outsideLog_appendLog e s,
      fun p absent => appendLog_no_reader absent e, fun p r reader => ?_⟩
    have reason : ∀ {n}, (appendLog e s).reader p = some n →
        ((appendLog e s).port p).log =
          (decide (0 < n.lost) || ((appendLog e s).log.drop n.cursor).any (visibleTo p)) := fun after => by
      rw [appendLog_reason, logReasonOf, after]
    rcases appendLog_reader_cases e s p with ⟨room, kept⟩ | ⟨oldest, full, head, moved⟩
    · have after := kept.trans reader
      exact ⟨r, after, fun _ => rfl, fun h => by omega, fun h => by omega, reason after⟩
    · have after : (appendLog e s).reader p = some (readerAfterDiscard p oldest r) := by rw [moved, reader]; rfl
      refine ⟨_, after, fun room => absurd room full, fun _ behind => if_neg (by omega), fun _ at_oldest d hd => ?_,
        reason after⟩
      obtain rfl : oldest = d := Option.some.inj (head.symm.trans hd)
      exact if_pos at_oldest
  · rw [BitVec.toNat_add]
    exact Nat.mod_eq_of_lt (Nat.succ_lt_succ below)
  · apply BitVec.eq_of_toNat_eq
    rw [BitVec.toNat_add, top]
    rfl

end Sys2Proof.Machine.Settled

namespace Sys2Proof.Machine

/-! ### SOFT RESET (R159, R162) -/

/-- R162: octets in start-up are discarded, and data out presents 00h. -/
theorem takeOctets_starting {s : State} {p : Port} (starting : s.starting = true) (os : List Byte) :
    (os.map fun b => (true, b)).foldl (takeOctet p) s =
      s.modPort p fun q => { q with dataOut := q.dataOut ++ List.replicate os.length 0 } := by
  induction os generalizing s with
  | nil => simp [State.modPort_eq]
  | cons b rest ih =>
    have discarded : takeOctet p s (true, b) = present p 0 s := if_pos starting
    rw [List.map_cons, List.foldl_cons, discarded, ih (by simpa [present] using starting)]
    simp [present, List.replicate_succ]

theorem tmod_tmapIdx {α : Type} {n : Nat} (v : Vector α n) (i : Fin n) {f g : α → α} (comm : ∀ x, g (f x) = f (g x)) :
    tmod (tmapIdx (fun _ => f) v) i g = tmapIdx (fun _ => f) (tmod v i g) := by
  apply table_ext
  intro j
  rw [tget_tmod, tget_tmapIdx, tget_tmapIdx, tget_tmod]
  split
  · exact comm _
  · rfl

/-- The begin of start-up commutes with a change of a port that the reset of a port commutes with. -/
theorem modPort_beginStartUp (s : State) (p : Port) {g : PortRec → PortRec}
    (comm : ∀ q, g (resetPort q) = resetPort (g q)) : (beginStartUp s).modPort p g = beginStartUp (s.modPort p g) :=
  congrArg (fun ports => { beginStartUp s with ports := ports }) (tmod_tmapIdx s.ports (portIdx p) comm)

/-- R159: SOFT RESET and octets after its code, which are discarded. -/
theorem clockBurst_softReset {s : State} (ready : Ready s .venue) (os : List Byte) :
    clockBurst .softReset .venue (Burst.whole os) s =
      beginStartUp (portAfter .venue (commandCode .softReset) .ok .idle os.length s) := by
  have ⟨_, _, _, assembly⟩ := ready
  rw [clockBurst_accepted ready rfl]
  simp only [acceptCode, softReset, setCodeResult, State.modPort_modPort]
  rw [takeOctets_starting rfl, modPort_beginStartUp, State.modPort_modPort]
  · refine congrArg beginStartUp (State.modPort_congr s .venue ?_)
    simp [assembly]
  · exact fun _ => rfl

/-! ### HARDWARE RESET (R149, R158) -/

theorem portIdx_surjective (i : Fin 5) : ∃ p, portIdx p = i := by
  by_cases h : i.val < 4
  · exact ⟨.tenant ⟨i.val, h⟩, rfl⟩
  · exact ⟨.venue, Fin.ext (by simp [portIdx]; omega)⟩

/-- R148: where no reader has a reason, evaluating every reader takes LOG from every port. -/
theorem evalLogAll_quiet {s : State} (quiet : ∀ p, logReasonOf s p = false) :
    evalLogAll s = { s with ports := tmapIdx (fun _ q => { q with log := false }) s.ports } := by
  have masked : tmapIdx (fun _ q => { q with log := false }) (evalLogAll s).ports =
      tmapIdx (fun _ q => { q with log := false }) s.ports := congrArg State.ports (outsideLog_evalLogAll s)
  have off : tmapIdx (fun _ q => { q with log := false }) (evalLogAll s).ports = (evalLogAll s).ports := by
    apply table_ext
    intro i
    obtain ⟨p, rfl⟩ := portIdx_surjective i
    have false_at : (tget (evalLogAll s).ports (portIdx p)).log = false := (evalLogAll_reason p s).trans (quiet p)
    rw [tget_tmapIdx, ← false_at]
  rw [evalLogAll_eq, ← off, masked]

/-- R148, R149: an empty log with no tenant reader gives no reason. -/
theorem logReasonOf_emptied {s : State} (log : s.log = []) (venue : s.venueReader = ⟨0, 0⟩)
    (tenants : s.tenantReaders = Vector.replicate 4 none) (p : Port) : logReasonOf s p = false := by
  cases p with
  | venue => simp [logReasonOf, State.reader, log, venue]
  | tenant t => simp [logReasonOf, State.reader, tenants]

/-- The part as a hardware reset leaves it before start-up begins. -/
def emptied (s : State) : State :=
  { s with
    ports := tmapIdx (fun _ q => { q with log := false }) s.ports
    log := []
    seconds := 0
    venueReader := ⟨0, 0⟩
    tenantReaders := Vector.replicate 4 none }

theorem hardwareReset_eq (s : State) : hardwareReset s = beginStartUp (emptied (interruptStore s)) := by
  have ports :
      tmapIdx (fun _ q => { q with log := false }) (tmapIdx (fun _ q => resetPort q) (interruptStore s).ports) =
        tmapIdx (fun _ q => resetPort q) (tmapIdx (fun _ q => { q with log := false }) (interruptStore s).ports) := by
    apply table_ext
    intro i
    simp only [tget_tmapIdx, resetPort]
  rw [hardwareReset, evalLogAll_quiet (logReasonOf_emptied rfl rfl rfl)]
  exact congrArg (fun ports => { beginStartUp (emptied (interruptStore s)) with ports := ports }) ports

/-! ### The interrupted page (R158, log 9) -/

theorem interruptedPage_octet (n : Nat) (old new : Vector Byte 33) (i : Fin 33) :
    tget (interruptedPage n old new).octets i = tget old i ∨
      tget (interruptedPage n old new).octets i = tget new i := by
  simp only [interruptedPage, tget_ofFn]
  split
  · exact .inr rfl
  · exact .inl rfl

theorem add_offset_ne (w : Word16) (k : Nat) : w + BitVec.ofNat 16 (k % 65535 + 1) ≠ w := by
  intro same
  have zero : BitVec.ofNat 16 (k % 65535 + 1) = 0 := by simpa using same
  have value := congrArg BitVec.toNat zero
  rw [BitVec.toNat_ofNat] at value
  have : (0 : Word16).toNat = 0 := rfl
  omega

theorem interruptedPage_integrity (n : Nat) (old new : Vector Byte 33) :
    (interruptedPage n old new).integrity ≠ crc16 (interruptedPage n old new).octets.toList :=
  add_offset_ne _ _

theorem interruptStore_idle {s : State} (idle : s.storeOp = none) : interruptStore s = s := by
  rw [interruptStore, idle]

theorem interruptStore_op {s : State} {op : StoreOp} (running : s.storeOp = some op) :
    (interruptStore s).freeCount = s.freeCount + 1 ∧
      (interruptStore s).pages =
        tmod s.pages (opPage op) fun pg => interruptedPage s.freeCount pg.octets (newOctets op pg) := by
  rw [interruptStore, running]
  exact ⟨rfl, rfl⟩

/-- R158: what is left of the store where the operation `op`, which was writing `new` to its page, is interrupted. -/
theorem interruptStore_page {s : State} {op : StoreOp} (running : s.storeOp = some op) {new : Vector Byte 33}
    (written : newOctets op (tget s.pages (opPage op)) = new) :
    (interruptStore s).freeCount = s.freeCount + 1 ∧
      (∀ q, q ≠ opPage op → tget (interruptStore s).pages q = tget s.pages q) ∧
      (∀ i, tget (tget (interruptStore s).pages (opPage op)).octets i = tget (tget s.pages (opPage op)).octets i ∨
        tget (tget (interruptStore s).pages (opPage op)).octets i = tget new i) ∧
      (tget (interruptStore s).pages (opPage op)).integrity ≠
        crc16 (tget (interruptStore s).pages (opPage op)).octets.toList := by
  obtain ⟨count, pages⟩ := interruptStore_op running
  rw [pages, tget_tmod_same, written]
  exact ⟨count, fun q other => tget_tmod_ne _ _ _ _ (Ne.symm other), interruptedPage_octet _ _ _,
    interruptedPage_integrity _ _ _⟩

end Sys2Proof.Machine

namespace Sys2Proof.Machine.Settled

/-- Settles O55: SOFT RESET at its port (`clockBurst_softReset`), the state that a hardware reset leaves
(`hardwareReset_eq`), and the page of an interrupted operation (`interruptStore_page`). -/
theorem resets : Obligations.Resets := by
  intro s
  refine ⟨fun ready os => congrArg Host.Outcome.next (clockBurst_softReset ready os),
    (interruptStore s).pages, (interruptStore s).freeCount, ?_, fun idle => ?_, fun p new operation => ?_⟩
  · have left := hardwareReset_eq s
    rw [interruptStore_eq s] at left
    exact congrArg Host.Outcome.next left
  · rw [interruptStore_idle idle]
    exact ⟨rfl, rfl⟩
  · rcases operation with ⟨records, running, octets⟩ | ⟨running, rfl⟩
    · have written : writtenOctets records = new := table_ext _ _ fun i => by rw [writtenOctets, tget_ofFn, octets]
      exact interruptStore_page running written
    · exact interruptStore_page running rfl

end Sys2Proof.Machine.Settled

namespace Sys2Proof.Machine

/-! ### A reply and the octets after a whole command (R163, R167) -/

/-- R171: the octets of a burst go through the port one after another. -/
theorem clockBurst_append {s : State} {p : Port} (ready : Ready s p) (c : Command) (os more : List Byte) :
    clockBurst c p (Burst.whole (os ++ more)) s =
      (more.map fun b => (true, b)).foldl (takeOctet p) (clockBurst c p (Burst.whole os) s) := by
  rw [clockBurst_whole ready, clockBurst_whole ready, List.map_append, List.foldl_append]

/-- R163: octets after a whole fixed command are ignored. -/
theorem takeOctets_afterFixed {s : State} (running : s.starting = false) (p : Port) (c : Command) (n : Nat) (r : Result)
    (os : List Byte) :
    (os.map fun b => (true, b)).foldl (takeOctet p) (afterFixed p c n r s) = afterFixed p c (n + os.length) r s := by
  have idle : ((afterFixed p c n r s).port p).cmd = .idle := by simp [afterFixed, portAfter]
  rw [takeOctets_idle (by simpa [afterFixed, portAfter] using running) idle]
  simp [afterFixed, portAfter, List.replicate_append_replicate]

/-! ### READ STATUS (R176) -/

/-- R165: READ STATUS is refused on no port. -/
theorem refusalOf_readStatus (s : State) (p : Port) : refusalOf s p .readStatus = none := by cases p <;> rfl

theorem statusReply_length (p : Port) (s : State) : (statusReply p s).length = 4 := rfl

/-- 11.3: each attention reason is one bit of its octet. -/
theorem reasonsOctet_eq (q : PortRec) :
    reasonsOctet q =
      octet ((if q.log = true then 1 else 0) + (if q.movesIdle = true then 2 else 0) +
        if q.storeDone = true then 4 else 0) := by
  simp only [reasonsOctet, bit, mul_ite, Nat.mul_one, Nat.mul_zero]

/-- R176: of the port, the reply to READ STATUS reads the last command code, the result and the reasons alone. -/
theorem statusReply_modPort (s : State) (p : Port) {g : PortRec → PortRec} (code : ∀ q, (g q).lastCode = q.lastCode)
    (result : ∀ q, (g q).result = q.result) (reasons : ∀ q, reasonsOctet (g q) = reasonsOctet q) :
    statusReply p (s.modPort p g) = statusReply p s := by
  simp only [statusReply, State.port_modPort_same, code, result, reasons]
  rfl

/-- R167, R176: READ STATUS and the octets of its reply. -/
theorem clockBurst_readStatus {s : State} {p : Port} (ready : Ready s p) {os : List Byte} (four : os.length = 4) :
    clockBurst .readStatus p (Burst.whole os) s = s.modPort p fun q =>
      { q with
        cmd := .reading (.reply (statusReply p s)) (some (statusReply p s)) 4
        movesIdle := false
        storeDone := false
        dataOut := firstOut p s :: statusReply p s } := by
  have ⟨running, _, _, assembly⟩ := ready
  have taken : acceptCode p .readStatus
      (s.modPort p fun q => { q with assembly := [], cmd := .idle, dataOut := [firstOut p s] }) =
      s.modPort p fun q =>
        { q with
          assembly := []
          cmd := .reading (.reply (statusReply p s)) none 0
          movesIdle := false
          storeDone := false
          dataOut := [firstOut p s] } := by
    simp only [acceptCode, takeStatus, clearOnStatus, setCmd, State.modPort_modPort]
    rw [statusReply_modPort s p (g := fun q => { q with assembly := [], cmd := .idle, dataOut := [firstOut p s] })
      (fun _ => rfl) (fun _ => rfl) (fun _ => rfl)]
  rw [clockBurst_accepted ready (refusalOf_readStatus s p), taken,
    takeOctets_reply (el := statusReply p s) (by simpa using running) (by simp) os four
      (List.ne_nil_of_length_pos (by omega)), State.modPort_modPort]
  refine State.modPort_congr s p ?_
  simp [assembly, statusReply_length]

/-- R175, R177: the attention line is asserted while the port has a reason, outside start-up. -/
theorem attentionAsserted_iff {s : State} {p : Port} :
    attentionAsserted s p = true ↔
      s.starting = false ∧ ((s.port p).log = true ∨ (s.port p).movesIdle = true ∨ (s.port p).storeDone = true) := by
  simp [attentionAsserted, or_assoc]

/-! ### READ STORE PAGE (R157) -/

theorem pageReply_length (pg : Page) : (pageReply pg).length = 34 := by simp [pageReply]

section

variable {a : Byte} {n : PageNo} {s : State}

theorem readStorePage_noPage (h : 5 < a.toNat) (s : State) : readStorePage a s = setResult .venue .range s := by
  rw [readStorePage, pageOf_none h]

theorem readStorePage_busy (h : a.toNat = n.val) (busy : s.storeOp.isSome = true) :
    readStorePage a s = setResult .venue .busy s := by
  simp only [readStorePage, pageOf_some h, busy, if_true]

theorem readStorePage_page (h : a.toNat = n.val) (idle : s.storeOp = none) :
    readStorePage a s =
      setCmd .venue (.reading (.reply (pageReply (tget s.pages n))) none 0) (setResult .venue .ok s) := by
  simp [readStorePage, pageOf_some h, idle]

/-- R166: READ STORE PAGE takes effect at its page number, before the octets of its reply. -/
theorem clockBurst_readStorePage (ready : Ready s .venue) (a : Byte) (os : List Byte) :
    clockBurst .readStorePage .venue (Burst.whole (a :: os)) s =
      (os.map fun b => (true, b)).foldl (takeOctet .venue)
        (readStorePage a (afterFixed .venue .readStorePage 1 .incomplete s)) := by
  rw [← List.singleton_append, clockBurst_append ready, clockBurst_fixed ready rfl rfl rfl]
  rfl

/-- R157: a refused READ STORE PAGE, and octets after it. -/
theorem clockBurst_readStorePage_refused (ready : Ready s .venue) {r : Result}
    (refused : readStorePage a (afterFixed .venue .readStorePage 1 .incomplete s) =
      setResult .venue r (afterFixed .venue .readStorePage 1 .incomplete s)) (os : List Byte) :
    clockBurst .readStorePage .venue (Burst.whole (a :: os)) s = afterFixed .venue .readStorePage (1 + os.length) r s := by
  rw [clockBurst_readStorePage ready, refused, setResult_afterFixed, takeOctets_afterFixed ready.1]

/-- R157, R167: READ STORE PAGE and the octets of its reply. -/
theorem clockBurst_readStorePage_page (ready : Ready s .venue) (h : a.toNat = n.val) (idle : s.storeOp = none)
    {os : List Byte} (whole : os.length = 34) :
    clockBurst .readStorePage .venue (Burst.whole (a :: os)) s =
      (portAfter .venue (commandCode .readStorePage) .ok
          (.reading (.reply (pageReply (tget s.pages n))) (some (pageReply (tget s.pages n))) 34) 0 s).modPort .venue
        fun q => { q with dataOut := [firstOut .venue s, 0] ++ pageReply (tget s.pages n) } := by
  have length := pageReply_length (tget s.pages n)
  have begun : readStorePage a (afterFixed .venue .readStorePage 1 .incomplete s) =
      setCmd .venue (.reading (.reply (pageReply (tget s.pages n))) none 0) (afterFixed .venue .readStorePage 1 .ok s) := by
    rw [readStorePage_page (s := afterFixed .venue .readStorePage 1 .incomplete s) h idle, setResult_afterFixed]
    rfl
  rw [clockBurst_readStorePage ready, begun,
    takeOctets_reply (el := pageReply (tget s.pages n)) (by simpa [setCmd, afterFixed, portAfter] using ready.1)
      (by simp [setCmd]) os (whole.trans length.symm) (List.ne_nil_of_length_pos (by omega)), length]
  simp [setCmd, afterFixed, portAfter]

end

end Sys2Proof.Machine

namespace Sys2Proof.Machine.Settled

/-- Settles O12: READ STATUS at its port (`clockBurst_readStatus`), the attention line, and the outcomes of READ STORE
PAGE. -/
theorem fixedReplies : Obligations.FixedReplies := by
  refine ⟨fun s p os ready four => congrArg Host.Outcome.next (clockBurst_readStatus ready four),
    fun s p => ⟨?_, attentionAsserted_iff⟩,
    fun s b os ready whole => ⟨fun hb => ?_, fun hb busy => ?_, fun n hn idle => ?_⟩⟩
  · rw [← reasonsOctet_eq]
    rfl
  · have refused := clockBurst_readStorePage_refused ready (readStorePage_noPage hb _) os
    rw [whole] at refused
    exact congrArg Host.Outcome.next refused
  · have page : b.toNat = (⟨b.toNat, by omega⟩ : PageNo).val := rfl
    have refused := clockBurst_readStorePage_refused ready (readStorePage_busy page busy) os
    rw [whole] at refused
    exact congrArg Host.Outcome.next refused
  · exact congrArg Host.Outcome.next (clockBurst_readStorePage_page ready hn idle whole)

end Sys2Proof.Machine.Settled

namespace Sys2Proof.Machine

/-! ### The octets of a zone record (R151, R180) -/

theorem classOf_eq_some_iff {b : Byte} {c : ZoneClass} : classOf b = some c ↔ b.toNat = (classIdx c).val := by
  unfold classOf
  constructor
  · intro named
    split at named <;> cases named <;> assumption
  · intro value
    rw [value]
    cases c <;> rfl

/-- R180: FFh stands for no binding. -/
theorem bindingOf_eq_none_iff {b : Byte} : bindingOf b = some none ↔ b = 0xFF := by
  unfold bindingOf
  split
  · next absent => exact iff_of_true rfl absent
  · next present =>
    refine iff_of_false (fun e => ?_) present
    split at e <;> cases e

/-- R180: the port stands in bits 7 to 4 and the position's number in bits 3 to 0. -/
theorem bindingOf_eq_some_iff {b : Byte} {x : Binding} :
    bindingOf b = some (some x) ↔ b.toNat = 16 * x.port.val + x.pos.val + 1 := by
  obtain ⟨port, pos⟩ := x
  unfold bindingOf
  split
  · next absent =>
    have value : b.toNat = 255 := by rw [absent]; rfl
    exact iff_of_false nofun (by dsimp only; omega)
  · split
    · next range =>
      simp only [Option.some.injEq, Binding.mk.injEq, Fin.ext_iff]
      omega
    · next outside => exact iff_of_false nofun (by dsimp only; omega)

/-- R151: a record has the values of its octets, each in range. -/
theorem recordOf_eq_some_iff {c1 c0 cls bind : Byte} {r : StoreRecord} :
    recordOf c1 c0 cls bind = some r ↔
      r.ceiling = be16 c1 c0 ∧ r.ceiling ≤ 16383 ∧ classOf cls = some r.cls ∧ bindingOf bind = some r.binding := by
  obtain ⟨ceiling, c, b⟩ := r
  unfold recordOf
  split
  · next c' b' hc hb =>
    rw [hc, hb]
    split
    · next range =>
      simp only [Option.some.injEq, StoreRecord.mk.injEq]
      refine ⟨?_, ?_⟩
      · rintro ⟨rfl, rfl, rfl⟩
        exact ⟨rfl, range, rfl, rfl⟩
      · rintro ⟨rfl, _, rfl, rfl⟩
        exact ⟨rfl, rfl, rfl⟩
    · next outside =>
      refine ⟨nofun, ?_⟩
      rintro ⟨rfl, range, _⟩
      exact absurd range outside
  · next none_of =>
    refine ⟨nofun, ?_⟩
    rintro ⟨_, _, hc, hb⟩
    exact absurd hb (none_of _ _ hc)

/-- R151: the record at place `i` of a page's octets, if every value of it is in range. -/
def recordAt (l : List Byte) (i : Nat) : Option StoreRecord :=
  recordOf (l.getD (4 * i) 0) (l.getD (4 * i + 1) 0) (l.getD (4 * i + 2) 0) (l.getD (4 * i + 3) 0)

theorem recordsOf_cons_eq_some_iff {c1 c0 cls bind : Byte} {rest : List Byte} {r : StoreRecord} {rs : List StoreRecord} :
    recordsOf (c1 :: c0 :: cls :: bind :: rest) = some (r :: rs) ↔
      recordOf c1 c0 cls bind = some r ∧ recordsOf rest = some rs := by
  rw [recordsOf]
  split
  · next r' rs' hr hrs => simp [hr, hrs]
  · next none_of => exact iff_of_false nofun fun ⟨hr, hrs⟩ => none_of _ _ hr hrs

/-- The records of `n` groups of four octets are those at their places. -/
theorem recordsOf_eq_some_iff {n : Nat} {l : List Byte} (groups : l.length = 4 * n) {rs : List StoreRecord}
    (places : rs.length = n) : recordsOf l = some rs ↔ ∀ i r, rs[i]? = some r → recordAt l i = some r := by
  induction n generalizing l rs with
  | zero =>
    obtain rfl := List.eq_nil_of_length_eq_zero groups
    obtain rfl := List.eq_nil_of_length_eq_zero places
    exact iff_of_true rfl nofun
  | succ n ih =>
    obtain ⟨r, rs, rfl⟩ := List.exists_cons_of_length_eq_add_one places
    obtain ⟨c1, c0, cls, bind, rest, rfl⟩ : ∃ c1 c0 cls bind rest, l = c1 :: c0 :: cls :: bind :: rest := by
      match l, groups with
      | c1 :: c0 :: cls :: bind :: rest, _ => exact ⟨c1, c0, cls, bind, rest, rfl⟩
    rw [recordsOf_cons_eq_some_iff, ih (by simp only [List.length_cons] at groups; omega) (by simpa using places)]
    constructor
    · rintro ⟨first, others⟩ (_ | i) x at_i
      · rwa [← Option.some.inj at_i]
      · exact others i x at_i
    · exact fun all => ⟨all 0 r rfl, fun i x at_i => all (i + 1) x at_i⟩

/-- The eight records of the 32 octets of a page. -/
theorem recordsOf_page_iff {records : Vector Byte 32} {rs : Vector StoreRecord 8} :
    recordsOf records.toList = some rs.toList ↔ ∀ i : Fin 8, recordAt records.toList i.val = some (tget rs i) := by
  rw [recordsOf_eq_some_iff (n := 8) (by simp) (by simp)]
  refine ⟨fun all i => all i _ (by simp [tget]), fun all i r at_i => ?_⟩
  obtain ⟨hi, rfl⟩ := List.getElem?_eq_some_iff.mp at_i
  exact all ⟨i, by simpa using hi⟩

/-! ### The bindings of a table of records (R153) -/

section

variable {n : Nat} {rs : Vector StoreRecord n}

theorem mem_bindingsOf_table {b : Binding} : b ∈ bindingsOf rs.toList ↔ ∃ i, (tget rs i).binding = some b := by
  simp only [bindingsOf, List.mem_filterMap, tget]
  constructor
  · rintro ⟨r, mem, held⟩
    obtain ⟨i, hi, rfl⟩ := List.mem_iff_getElem.mp mem
    exact ⟨⟨i, by simpa using hi⟩, by simpa using held⟩
  · rintro ⟨i, held⟩
    exact ⟨rs[i], by simp, held⟩

/-- The bindings of a table are distinct where no two of its places hold one binding. -/
theorem bindingsOf_table_nodup :
    (bindingsOf rs.toList).Nodup ↔
      ∀ i j b, (tget rs i).binding = some b → (tget rs j).binding = some b → i = j := by
  rw [bindingsOf, List.Nodup, List.pairwise_filterMap, List.pairwise_iff_getElem]
  constructor
  · intro once i j b hi hj
    have apart : ∀ {i j : Fin n}, (tget rs i).binding = some b → (tget rs j).binding = some b → ¬ i < j :=
      fun {i j} hi hj below => once i j (by simp) (by simp) below b hi b hj rfl
    exact le_antisymm (not_lt.mp (apart hj hi)) (not_lt.mp (apart hi hj))
  · rintro once i j hi hj below b hb _ hb' rfl
    have same := once ⟨i, by simpa using hi⟩ ⟨j, by simpa using hj⟩ b hb hb'
    exact absurd (congrArg Fin.val same) (ne_of_lt below)

end

/-- R153: the records that a page write admits: in range, no binding twice, and none of a zone outside the page. -/
theorem recordsAcceptable_iff_list {s : State} {p : PageNo} {l : List Byte} :
    recordsAcceptable s p l = true ↔
      ∃ rs, recordsOf l = some rs ∧ (bindingsOf rs).Nodup ∧
        ∀ b ∈ bindingsOf rs, ∀ z, pageOfZone z ≠ p → (s.zone z).binding ≠ some b := by
  unfold recordsAcceptable
  split
  · next none_held => simp [none_held]
  · next rs held => simp [held, distinctBindings_iff, otherBindings, allZones]

/-- R153: the records that a page write admits, place by place. -/
theorem recordsAcceptable_iff {s : State} {p : PageNo} {records : Vector Byte 32} :
    recordsAcceptable s p records.toList = true ↔
      ∃ rs : Vector StoreRecord 8, (∀ i : Fin 8, recordAt records.toList i.val = some (tget rs i)) ∧
        (∀ i j b, (tget rs i).binding = some b → (tget rs j).binding = some b → i = j) ∧
        ∀ i z b, (tget rs i).binding = some b → z.val / 8 ≠ p.val → (s.zone z).binding ≠ some b := by
  have table : recordsAcceptable s p records.toList = true ↔
      ∃ rs : Vector StoreRecord 8, recordsOf records.toList = some rs.toList ∧ (bindingsOf rs.toList).Nodup ∧
        ∀ b ∈ bindingsOf rs.toList, ∀ z, pageOfZone z ≠ p → (s.zone z).binding ≠ some b := by
    rw [recordsAcceptable_iff_list]
    refine ⟨fun ⟨rs, some_rs, admits⟩ => ?_, fun ⟨rs, admits⟩ => ⟨rs.toList, admits⟩⟩
    have eight : rs.length = 8 := by simpa using (recordsOf_spec _ some_rs).1
    exact ⟨⟨rs.toArray, by simpa using eight⟩, some_rs, admits⟩
  rw [table]
  refine exists_congr fun rs => and_congr recordsOf_page_iff (and_congr bindingsOf_table_nodup ?_)
  simp only [mem_bindingsOf_table, ne_eq, pageOfZone_eq_iff]
  exact ⟨fun free i z b hb hz => free b ⟨i, hb⟩ z hz, fun free b ⟨i, hb⟩ z hz => free i z b hb hz⟩

/-! ### The checks of the store commands (R153, R156) -/

theorem pageValid_iff {pg : Page} : pageValid pg = true ↔ pg.integrity = crc16 pg.octets.toList := beq_iff_eq

theorem pageLocked_iff {pg : Page} :
    pageLocked pg = true ↔ pg.integrity = crc16 pg.octets.toList ∧ tget pg.octets 32 = 0x5A := by
  rw [pageLocked, Bool.and_eq_true, pageValid_iff, lockOctet, beq_iff_eq]

section

variable {a : Byte} {p : PageNo} {records : Vector Byte 32} {s : State}

theorem writeStorePage_noPage (h : 5 < a.toNat) (records : Vector Byte 32) (s : State) :
    writeStorePage a records s = setResult .venue .range s := by
  rw [writeStorePage, pageOf_none h]

theorem lockStorePage_noPage (h : 5 < a.toNat) (s : State) : lockStorePage a s = setResult .venue .range s := by
  rw [lockStorePage, pageOf_none h]

section

variable (page : a.toNat = p.val)
include page

theorem writeStorePage_busy (busy : s.storeOp.isSome = true) :
    writeStorePage a records s = setResult .venue .busy s := by
  simp only [writeStorePage, pageOf_some page, busy, if_true]

theorem lockStorePage_busy (busy : s.storeOp.isSome = true) : lockStorePage a s = setResult .venue .busy s := by
  simp only [lockStorePage, pageOf_some page, busy, if_true]

variable (idle : s.storeOp = none)
include idle

theorem writeStorePage_locked (locked : pageLocked (tget s.pages p) = true) :
    writeStorePage a records s = setResult .venue .rights s := by
  simp [writeStorePage, pageOf_some page, idle, locked]

theorem lockStorePage_locked (locked : pageLocked (tget s.pages p) = true) :
    lockStorePage a s = setResult .venue .rights s := by
  simp [lockStorePage, pageOf_some page, idle, locked]

variable (unlocked : pageLocked (tget s.pages p) = false)
include unlocked

theorem writeStorePage_refused (unfit : recordsAcceptable s p records.toList = false) :
    writeStorePage a records s = setResult .venue .range s := by
  simp [writeStorePage, pageOf_some page, idle, unlocked, unfit]

theorem writeStorePage_accepted (fit : recordsAcceptable s p records.toList = true) :
    writeStorePage a records s = setResult .venue .ok { s with storeOp := some (.write p records) } := by
  simp [writeStorePage, pageOf_some page, idle, unlocked, fit]

theorem lockStorePage_invalid (invalid : pageValid (tget s.pages p) = false) :
    lockStorePage a s = setResult .venue .state s := by
  simp [lockStorePage, pageOf_some page, idle, unlocked, invalid]

theorem lockStorePage_accepted (valid : pageValid (tget s.pages p) = true) :
    lockStorePage a s = setResult .venue .ok { s with storeOp := some (.lock p) } := by
  simp [lockStorePage, pageOf_some page, idle, unlocked, valid]

end

end

/-! ### The store commands at port V (R152, R153) -/

/-- R153: the parameters of WRITE STORE PAGE are its page number and its record octets. -/
theorem withPage_whole (a : Byte) (records : Vector Byte 32) (f : Byte → Vector Byte 32 → State → State) (s : State) :
    withPage (a :: records.toList) f s = f a records s := by
  have whole : (Vector.ofFn fun i : Fin 32 => records.toList.getD i.val 0) = records :=
    table_ext _ _ fun i => by simp [tget]
  rw [withPage, whole]

/-- R152: an accepted store command leaves its result and begins its operation. -/
theorem exec_begun {i : Instr} {s x : State} {c : Command} {n : Nat} {op : StoreOp} (run : exec i s = .next x)
    (e : x = setResult .venue .ok { afterFixed .venue c n .incomplete s with storeOp := some op }) :
    exec i s = .next { afterFixed .venue c n .ok s with storeOp := some op } := by
  rw [run, e, ← setResult_afterFixed .venue c n .ok .incomplete s]
  rfl

end Sys2Proof.Machine

namespace Sys2Proof.Machine.Settled

/-- Settles O53: the refusals and the operation of each command in the order of the checks, and what the check of the
records admits (`recordsAcceptable_iff`). -/
theorem storeCommands : Obligations.StoreCommands := by
  intro s a records ready
  have write : exec (.writeStorePage .venue (Burst.whole (a :: records.toList))) s =
      .next (writeStorePage a records (afterFixed .venue .writeStorePage 33 .incomplete s)) := by
    have run := exec_venue (os := a :: records.toList) ready (c := .writeStorePage) rfl (by decide) (by simp [paramCount])
    rw [List.length_cons, Vector.length_toList] at run
    exact run.trans (congrArg _ (withPage_whole a records writeStorePage _))
  have lock : exec (.lockStorePage .venue (Burst.whole [a])) s =
      .next (lockStorePage a (afterFixed .venue .lockStorePage 1 .incomplete s)) :=
    exec_venue ready (c := .lockStorePage) rfl (by decide) rfl
  refine ⟨fun ha => ⟨exec_result write (writeStorePage_noPage ha _ _), exec_result lock (lockStorePage_noPage ha _)⟩,
    fun p page => ⟨fun busy => ⟨exec_result write (writeStorePage_busy page busy),
      exec_result lock (lockStorePage_busy page busy)⟩, fun idle => ⟨fun locked => ?_, fun unlocked => ?_⟩, ?_⟩⟩
  · have locked := pageLocked_iff.mpr locked
    exact ⟨exec_result write (writeStorePage_locked page idle locked),
      exec_result lock (lockStorePage_locked page idle locked)⟩
  · have unlocked := Bool.eq_false_iff.mpr (mt pageLocked_iff.mp unlocked)
    refine ⟨fun invalid => ?_, fun valid => ?_, fun unfit => ?_, fun fit => ?_⟩
    · have invalid := Bool.eq_false_iff.mpr (mt pageValid_iff.mp invalid)
      exact exec_result lock (lockStorePage_invalid page idle unlocked invalid)
    · exact exec_begun lock (lockStorePage_accepted page idle unlocked (pageValid_iff.mpr valid))
    · exact exec_result write (writeStorePage_refused page idle unlocked unfit)
    · exact exec_begun write (writeStorePage_accepted page idle unlocked fit)
  · rw [recordsAcceptable_iff]
    refine exists_congr fun rs => and_congr_left fun _ => forall_congr' fun i => ?_
    rw [recordAt, recordOf_eq_some_iff, classOf_eq_some_iff]
    refine and_congr_right fun _ => and_congr_right fun _ => and_congr_right fun _ => ?_
    cases (tget rs i).binding with
    | none => exact bindingOf_eq_none_iff
    | some b => exact bindingOf_eq_some_iff

end Sys2Proof.Machine.Settled

namespace Sys2Proof.Machine

/-! ### The command code table (11.5) -/

/-- R164: the command that a code names is the one whose code it is. -/
theorem commandOf_eq_some_iff {b : Byte} {c : Command} : commandOf b = some c ↔ b = commandCode c := by
  refine ⟨fun named => ?_, fun e => e ▸ commandOf_code c⟩
  have code := List.find?_some named
  exact (beq_iff_eq.mp code).symm

/-! ### A port that takes no octet (R162, R171, R177) -/

/-- The rows that a controller clocks into a port: a command, elements, or a code that names no command. -/
theorem exec_clocked {i : Instr} {p : Port}
    (h : (∃ c b, i = commandRow c p b) ∨ (∃ row ∈ elementRows, ∃ c, i = row p c) ∨ ∃ code c, i = .unknownCommand p code c)
    (s : State) : ∃ bits, exec i s = .next (clockBits p bits s) := by
  rcases h with ⟨c, b, rfl⟩ | ⟨row, mem, c, rfl⟩ | ⟨code, c, rfl⟩
  · cases b with
    | code rest => exact ⟨_, exec_commandRow c p (.code rest) s⟩
    | more rest => exact ⟨_, exec_commandRow c p (.more rest) s⟩
  · exact ⟨_, exec_elementRow mem p c s⟩
  · exact ⟨_, rfl⟩

/-- R162, R177: bits on a port that takes no octet change the record of data out alone. -/
theorem clockBits_untaken {s : State} {p : Port}
    (h : (s.port p).selectLow = false ∨ s.starting = true ∨ (s.port p).armed = false) (bits : List LineBit) :
    ∃ out : List Byte, (∀ b ∈ out, b = 0) ∧ clockBits p bits s = s.modPort p fun q => { q with dataOut := out } := by
  by_cases low : (s.port p).selectLow = true
  · have untaken : (s.starting || !(s.port p).armed) = true := by simpa [low] using h
    refine ⟨List.replicate (bits.length / 8) 0, fun b => List.eq_of_mem_replicate, ?_⟩
    simp [clockBits, low, untaken]
  · exact ⟨[], by simp, by simp [clockBits, clearOut, low]⟩

/-! ### Codes that are refused (R164, R165) -/

/-- A code octet that leaves its port IDLE with a result, and the octets after it, which are ignored. -/
theorem takeOctets_refusedCode {s : State} {p : Port} (ready : Ready s p) {code : Byte} {r : Result}
    (refused : ∀ x : State, x.tenants = s.tenants → takeCode p code x = setCodeResult p code r (setCmd p .idle x))
    (os : List Byte) :
    (os.map fun b => (true, b)).foldl (takeOctet p) (takeOctet p (opened p s) (false, code)) =
      portAfter p code r .idle os.length s := by
  obtain ⟨running, _, _, assembly⟩ := ready
  obtain ⟨x, begun⟩ := beginOctet_eq p (opened p s)
  have tenants : (present p (firstOut p s) (setCmd p x (opened p s))).tenants = s.tenants := rfl
  rw [takeOctet_code (s := opened p s) running, firstOut_opened, begun, refused _ tenants,
    takeOctets_idle (by simpa [setCodeResult, setCmd, present, opened] using running) (by simp [setCodeResult, setCmd])]
  simp only [setCodeResult, setCmd, present, opened, State.modPort_modPort]
  refine State.modPort_congr s p ?_
  simp [assembly]

/-- R164: a code that names no command, and the octets after it. -/
theorem clockCode_unknown {s : State} {p : Port} (ready : Ready s p) {code : Byte} (unnamed : commandOf code = none)
    (os : List Byte) : clockCode p code (Clocked.whole os) s = portAfter p code .unknown .idle os.length s := by
  rw [clockCode_whole ready]
  refine takeOctets_refusedCode ready (fun x _ => ?_) os
  simp only [takeCode, unnamed]

/-- The rights table reads the states of the tenants alone. -/
theorem refusalOf_congr {s t : State} (tenants : t.tenants = s.tenants) (p : Port) (c : Command) :
    refusalOf t p c = refusalOf s p c := by
  unfold refusalOf isActive admitted State.tenant
  rw [tenants]

/-- R165: a refused code, and the octets after it. -/
theorem exec_refused {s : State} {p : Port} (ready : Ready s p) {c : Command} {r : Result}
    (refused : refusalOf s p c = some r) (os : List Byte) :
    exec (commandRow c p (Burst.whole os)) s = .next (portAfter p (commandCode c) r .idle os.length s) := by
  rw [exec_commandRow, clockBurst_whole ready]
  refine congrArg _ (takeOctets_refusedCode ready (fun x tenants => takeCode_refused ?_) os)
  rw [refusalOf_congr tenants, refused]

/-! ### The rights table (R165) -/

theorem refusalOf_venue_tenant (s : State) {c : Command} (kind : commandKind c = .tenant) :
    refusalOf s .venue c = some .rights := if_pos kind

theorem refusalOf_tenant_venue (s : State) (t : Tenant) {c : Command} (kind : commandKind c = .venue) :
    refusalOf s (.tenant t) c = some .rights := by simp [refusalOf, kind]

/-- R165: a tenant that is not ACTIVE gives no command of the plan. -/
theorem refusalOf_inactive {s : State} {t : Tenant} {c : Command}
    (kind : commandKind c = .tenant ∨ c = .setWindow ∨ c = .readPlan ∨ c = .readGrants)
    (inactive : (s.tenant t).state ≠ .active) : refusalOf s (.tenant t) c = some .state := by
  have state : isActive s t = false := by simpa [isActive] using inactive
  rcases kind with kind | rfl | rfl | rfl
  · simp [refusalOf, kind, state]
  all_goals simp [refusalOf, commandKind, state]

theorem refusalOf_readFault_vacant {s : State} {t : Tenant} (vacant : (s.tenant t).state = .vacant) :
    refusalOf s (.tenant t) .readFault = some .state := by simp [refusalOf, commandKind, admitted, vacant]

/-- R165: the commands of the plan are admitted on the port of an ACTIVE tenant. -/
theorem refusalOf_active {s : State} {t : Tenant} {c : Command} (kind : commandKind c ≠ .venue)
    (active : (s.tenant t).state = .active) : refusalOf s (.tenant t) c = none := by
  have state : isActive s t = true := by simp [isActive, active]
  have present : admitted s t = true := by simp [admitted, active]
  unfold refusalOf
  dsimp only
  split
  · next venue => exact absurd venue kind
  · exact if_pos state
  · split
    · rfl
    · exact if_pos present
    · exact if_pos state

/-! ### SET WINDOW (R168) -/

theorem zoneOf_eq {b : Byte} {z : Zone} (h : zoneOf b = some z) : b.toNat = z.val := by
  unfold zoneOf at h
  split at h
  · cases h
    rfl
  · cases h

theorem setWindow_range {a b : Byte} (h : 47 < a.toNat ∨ 47 < b.toNat ∨ b.toNat < a.toNat) (p : Port) (s : State) :
    setWindow p a b s = setResult p .range s := by
  unfold setWindow
  split
  · next x y first last =>
    have at_first := zoneOf_eq first
    have at_last := zoneOf_eq last
    have below : y < x := Fin.lt_def.mpr (by omega)
    rw [if_pos below]
  · rfl

theorem setWindow_ok {a b : Byte} {x y : Zone} (le : x ≤ y) (first : a.toNat = x.val) (last : b.toNat = y.val) (p : Port)
    (s : State) :
    setWindow p a b s = setResult p .ok (s.modPort p fun q => { q with first := x, last := y, pointer := x }) := by
  simp only [setWindow, zoneOf_some first, zoneOf_some last, if_neg (not_lt.mpr le)]

end Sys2Proof.Machine

namespace Sys2Proof.Machine.Settled

/-- Settles O5: the code of each command, and the command of each code (`commandOf_eq_some_iff`). -/
theorem codesAndCrc : Obligations.CodesAndCrc :=
  ⟨⟨by decide, fun _ _ => commandOf_eq_some_iff⟩, by decide +kernel⟩

/-- Settles O6: a row clocked into a port that takes no octet (`clockBits_untaken`), and the two edges of select. -/
theorem portSelect : Obligations.PortSelect := by
  refine ⟨fun s p untaken i row => ?_, fun s p => ⟨rfl, fun high => ?_, fun low => ?_⟩⟩
  · obtain ⟨bits, run⟩ := exec_clocked row s
    obtain ⟨out, zero, left⟩ := clockBits_untaken untaken bits
    exact ⟨out, zero, run.trans (congrArg _ left)⟩
  · exact congrArg Host.Outcome.next (State.modPort_congr s p (by simp [high]))
  · exact congrArg Host.Outcome.next (State.modPort_eq s p _ (if_pos low))

/-- Settles O7: a code without a command (`clockCode_unknown`), and the refusals of the rights table (`exec_refused`). -/
theorem refusedCodes : Obligations.RefusedCodes := by
  refine ⟨fun s p code os ready unnamed => congrArg Host.Outcome.next (clockCode_unknown ready unnamed os),
    fun s c os => ⟨fun ready kind => ?_, fun t ready => ⟨fun kind => ?_, fun kind inactive => ?_, ?_⟩⟩⟩
  · exact exec_refused ready (refusalOf_venue_tenant s kind) os
  · exact exec_refused ready (refusalOf_tenant_venue s t kind) os
  · exact exec_refused ready (refusalOf_inactive kind inactive) os
  · rintro rfl vacant
    exact exec_refused ready (refusalOf_readFault_vacant vacant) os

end Sys2Proof.Machine.Settled

namespace Sys2Proof.Machine

/-- R165: the shared commands of the plan are refused neither on port V nor on the port of an ACTIVE tenant. -/
theorem refusalOf_shared {s : State} {p : Port} (active : ∀ t, p = .tenant t → (s.tenant t).state = .active)
    {c : Command} (kind : commandKind c = .shared) : refusalOf s p c = none := by
  cases p with
  | venue => simp [refusalOf, kind]
  | tenant t => exact refusalOf_active (by simp [kind]) (active t rfl)

theorem exec_setWindow {s : State} {p : Port} (ready : Ready s p)
    (active : ∀ t, p = .tenant t → (s.tenant t).state = .active) (a b : Byte) :
    exec (.setWindow p (Burst.whole [a, b])) s = .next (setWindow p a b (afterFixed p .setWindow 2 .incomplete s)) := by
  have run := exec_fixed ready (c := .setWindow) rfl (refusalOf_shared active rfl) (os := [a, b]) rfl
  cases p <;> exact run

/-! ### The codes of the streamed commands (R164, R168 to R170) -/

/-- R164, R168: the accepted code of a command over the window. -/
theorem exec_windowedCode {s : State} {p : Port} (ready : Ready s p) {c : Command} {prog : Progress}
    (accepted : refusalOf s p c = none)
    (begins : ∀ x, acceptCode p c x = beginWindowed p prog (setCodeResult p (commandCode c) .ok x)) (os : List Byte) :
    exec (commandRow c p (Burst.whole os)) s =
      .next ((os.map fun b => (true, b)).foldl (takeOctet p) (windowedCode p c prog 0 s)) := by
  rw [exec_commandRow, clockBurst_accepted ready accepted, begins]
  have placed : beginWindowed p prog (setCodeResult p (commandCode c) .ok
      (s.modPort p fun q => { q with assembly := [], cmd := .idle, dataOut := [firstOut p s] })) =
      windowedCode p c prog 0 s := by
    simp only [beginWindowed, placePointer, setCmd, setCodeResult, windowedCode, portAfter, State.modPort_modPort]
    refine State.modPort_congr s p ?_
    simp [ready.2.2.2]
  rw [placed]

/-- R164: the accepted code of a command that does not speak of the window. -/
theorem exec_streamedCode {s : State} {p : Port} (ready : Ready s p) {c : Command} {prog : Progress}
    (accepted : refusalOf s p c = none)
    (begins : ∀ x, acceptCode p c x = setCmd p prog (setCodeResult p (commandCode c) .ok x)) :
    exec (commandRow c p (Burst.whole [])) s = .next (portAfter p (commandCode c) .ok prog 0 s) := by
  rw [exec_commandRow, clockBurst_accepted ready accepted, begins]
  refine congrArg Host.Outcome.next ?_
  simp only [List.map_nil, List.foldl_nil, setCmd, setCodeResult, portAfter, State.modPort_modPort]
  refine State.modPort_congr s p ?_
  simp [ready.2.2.2]

/-! ### Leading parameters (R70, R170, log 28) -/

/-- R70, R170: what the number after the code of a command that awaits one makes of the port's command, if it is a
number of the part. -/
def numbered : Command → Byte → Option Progress
  | .writeScene, b => (slotOf b).map fun k => .streaming (.scene k) []
  | .readPlan, b => (tenantOf b).map fun t => .reading (.plan t) none 0
  | .readGrants, b => (tenantOf b).map fun t => .reading (.grants t) none 0
  | _, _ => none

/-- The commands whose code a number follows. -/
def AwaitsNumber (c : Command) : Prop := c = .writeScene ∨ c = .readPlan ∨ c = .readGrants

/-- R70, R170: the command goes on with its number, or is refused with RANGE. -/
theorem takeLeading_eq {c : Command} (awaits : AwaitsNumber c) (p : Port) (b : Byte) (s : State) :
    takeLeading p c b s =
      match numbered c b with
      | some prog => setCmd p prog s
      | none => setResult p .range (setCmd p .idle s) := by
  rcases awaits with rfl | rfl | rfl
  · simp only [takeLeading, numbered]
    cases slotOf b <;> rfl
  · simp only [takeLeading, numbered]
    cases tenantOf b <;> rfl
  · simp only [takeLeading, numbered]
    cases tenantOf b <;> rfl

theorem numbered_slot {b : Byte} {k : Slot} (h : b.toNat = k.val) :
    numbered .writeScene b = some (.streaming (.scene k) []) := by rw [numbered, slotOf_some h]; rfl

theorem numbered_plan {b : Byte} {t : Tenant} (h : b.toNat = t.val) :
    numbered .readPlan b = some (.reading (.plan t) none 0) := by rw [numbered, tenantOf_some h]; rfl

theorem numbered_grants {b : Byte} {t : Tenant} (h : b.toNat = t.val) :
    numbered .readGrants b = some (.reading (.grants t) none 0) := by rw [numbered, tenantOf_some h]; rfl

theorem numbered_none {b : Byte} (h : 3 < b.toNat) (c : Command) : numbered c b = none := by
  cases c <;> simp [numbered, slotOf_none h, tenantOf_none h]

section

variable {s : State} {p : Port} {c : Command}

/-- The number completes, in whichever burst it comes. -/
theorem takeOctet_leading (running : s.starting = false) (awaiting : (s.port p).cmd = .leading c) (b : Byte) :
    takeOctet p s (true, b) = takeLeading p c b (present p 0 s) := by
  rw [takeOctet_param running (by simp [awaiting])]
  simp [takeParam, present, awaiting]

/-- The octet of the number in a later burst. -/
theorem exec_laterNumber (ready : Ready s p) (awaiting : (s.port p).cmd = .leading c) (b : Byte) :
    exec (commandRow c p (.more (Clocked.whole [b]))) s =
      .next (takeLeading p c b (s.modPort p fun q => { q with dataOut := [0] })) := by
  rw [exec_commandRow]
  refine congrArg Host.Outcome.next ((clockElement_whole ready [b]).trans ?_)
  rw [List.map_singleton, List.foldl_cons, List.foldl_nil,
    takeOctet_leading (s := opened p s) (c := c) ready.1 (by simp [opened, awaiting])]
  refine congrArg (takeLeading p c b) ?_
  rw [present, opened, State.modPort_modPort]
  refine State.modPort_congr s p ?_
  simp [ready.2.2.2]

/-- The octet of the number in the burst of the code. -/
theorem exec_codeAndNumber (ready : Ready s p) (accepted : refusalOf s p c = none)
    (begins : ∀ x, acceptCode p c x = beginWindowed p (.leading c) (setCodeResult p (commandCode c) .ok x)) (b : Byte) :
    exec (commandRow c p (Burst.whole [b])) s = .next (takeLeading p c b (windowedCode p c (.leading c) 1 s)) := by
  rw [exec_windowedCode ready accepted begins, List.map_singleton, List.foldl_cons, List.foldl_nil,
    takeOctet_leading (s := windowedCode p c (.leading c) 0 s) (c := c) ready.1 (by simp [windowedCode, portAfter])]
  simp [present, windowedCode, portAfter]

variable (awaits : AwaitsNumber c) {b : Byte} {prog : Progress} {n : Nat}
include awaits

/-- A number of the part, at a port of which no more than data out has changed since. -/
theorem takeLeading_number (number : numbered c b = some prog) :
    takeLeading p c b (s.modPort p fun q => { q with dataOut := [0] }) =
      s.modPort p fun q => { q with cmd := prog, dataOut := [0] } := by
  rw [takeLeading_eq awaits, number]
  simp [setCmd]

theorem takeLeading_noNumber (above : 3 < b.toNat) :
    takeLeading p c b (s.modPort p fun q => { q with dataOut := [0] }) =
      s.modPort p fun q => { q with cmd := .idle, result := .range, dataOut := [0] } := by
  rw [takeLeading_eq awaits, numbered_none above]
  simp [setCmd, setResult]

/-- A number of the part, behind the code. -/
theorem takeLeading_codeAndNumber (number : numbered c b = some prog) :
    takeLeading p c b (windowedCode p c (.leading c) n s) = windowedCode p c prog n s := by
  rw [takeLeading_eq awaits, number]
  simp [setCmd, windowedCode, portAfter]

theorem takeLeading_codeAndNoNumber (above : 3 < b.toNat) :
    takeLeading p c b (windowedCode p c (.leading c) n s) = setResult p .range (windowedCode p c .idle n s) := by
  rw [takeLeading_eq awaits, numbered_none above]
  simp [setCmd, setResult, windowedCode, portAfter]

end

end Sys2Proof.Machine

namespace Sys2Proof.Machine.Settled

/-- Settles O9: the two ends of the window in their order (`setWindow_ok`), or the refusal (`setWindow_range`). -/
theorem setWindow : Obligations.SetWindow := by
  intro s p a b ready active
  have run := exec_setWindow ready active a b
  refine ⟨fun out => exec_result run (setWindow_range out p _), fun x y le first last => run.trans ?_⟩
  rw [setWindow_ok le first last]
  simp [setResult, afterFixed, portAfter]

/-- Settles O10: the codes over the window (`exec_windowedCode`) and those that do not speak of it, and the number that
some await, in the burst of the code (`exec_codeAndNumber`) or in a later one (`exec_laterNumber`). -/
theorem streamedCodes : Obligations.StreamedCodes := by
  have scene : AwaitsNumber .writeScene := .inl rfl
  have plan : AwaitsNumber .readPlan := .inr (.inl rfl)
  have grants : AwaitsNumber .readGrants := .inr (.inr rfl)
  refine ⟨fun s => ⟨fun ready => ⟨?_, ?_⟩, fun t ready active => ?_⟩, fun s => ⟨fun t ready active => ?_, fun ready => ?_⟩,
    fun s p b ready => ⟨fun cmd => ?_, fun cmd => ?_, fun cmd => ?_⟩⟩
  · exact exec_windowedCode ready (c := .writeLimits) rfl (fun _ => rfl) []
  · exact exec_streamedCode ready (c := .writeWeights) rfl fun _ => rfl
  · have accepted : ∀ c, commandKind c ≠ .venue → refusalOf s (.tenant t) c = none := fun c kind =>
      refusalOf_active kind active
    refine ⟨?_, ?_, ?_, fun b => ?_⟩
    · exact exec_windowedCode ready (c := .writeTargets) (accepted _ (by decide)) (fun _ => rfl) []
    · exact exec_windowedCode ready (c := .writeAlternates) (accepted _ (by decide)) (fun _ => rfl) []
    · exact exec_windowedCode ready (c := .writeScene) (accepted _ (by decide)) (fun _ => rfl) []
    · have run := exec_codeAndNumber ready (c := .writeScene) (accepted _ (by decide)) (fun _ => rfl) b
      exact ⟨fun k h => run.trans (congrArg _ (takeLeading_codeAndNumber scene (numbered_slot h))),
        fun h => run.trans (congrArg _ (takeLeading_codeAndNoNumber scene h))⟩
  · have accepted : ∀ c, commandKind c ≠ .venue → refusalOf s (.tenant t) c = none := fun c kind =>
      refusalOf_active kind active
    refine ⟨?_, ?_, ?_⟩
    · exact exec_windowedCode ready (c := .readPlan) (accepted _ (by decide)) (fun _ => rfl) []
    · exact exec_windowedCode ready (c := .readGrants) (accepted _ (by decide)) (fun _ => rfl) []
    · exact exec_streamedCode ready (c := .readLoads) (accepted _ (by decide)) fun _ => rfl
  · refine ⟨?_, ?_, ?_, ?_, fun b => ?_⟩
    · exact exec_windowedCode ready (c := .readZones) rfl (fun _ => rfl) []
    · exact exec_streamedCode ready (c := .readWeights) rfl fun _ => rfl
    · exact exec_windowedCode ready (c := .readPlan) rfl (fun _ => rfl) []
    · exact exec_windowedCode ready (c := .readGrants) rfl (fun _ => rfl) []
    · have ofPlan := exec_codeAndNumber ready (c := .readPlan) rfl (fun _ => rfl) b
      have ofGrants := exec_codeAndNumber ready (c := .readGrants) rfl (fun _ => rfl) b
      exact ⟨fun t h => ⟨ofPlan.trans (congrArg _ (takeLeading_codeAndNumber plan (numbered_plan h))),
          ofGrants.trans (congrArg _ (takeLeading_codeAndNumber grants (numbered_grants h)))⟩,
        fun h => ⟨ofPlan.trans (congrArg _ (takeLeading_codeAndNoNumber plan h)),
          ofGrants.trans (congrArg _ (takeLeading_codeAndNoNumber grants h))⟩⟩
  · have run := exec_laterNumber ready cmd b
    exact ⟨fun k h => run.trans (congrArg _ (takeLeading_number scene (numbered_slot h))),
      fun h => run.trans (congrArg _ (takeLeading_noNumber scene h))⟩
  · have run := exec_laterNumber ready cmd b
    exact ⟨fun t h => run.trans (congrArg _ (takeLeading_number plan (numbered_plan h))),
      fun h => run.trans (congrArg _ (takeLeading_noNumber plan h))⟩
  · have run := exec_laterNumber ready cmd b
    exact ⟨fun t h => run.trans (congrArg _ (takeLeading_number grants (numbered_grants h))),
      fun h => run.trans (congrArg _ (takeLeading_noNumber grants h))⟩

end Sys2Proof.Machine.Settled

namespace Sys2Proof.Machine

/-! ### Bits that complete an octet, and bits that do not (R162) -/

/-- Too few bits for an octet are left over. -/
theorem cutOctets_short {held bits : List LineBit} (short : held.length + bits.length < 8) :
    cutOctets held bits = ([], held ++ bits) := by
  induction bits generalizing held with
  | nil => simp [cutOctets]
  | cons b rest ih =>
    rw [List.length_cons] at short
    have unfinished : (held ++ [b]).length ≠ 8 := by simp; omega
    rw [cutOctets, if_neg unfinished, ih (by simp; omega), List.append_assoc, List.singleton_append]

/-- The eighth bit gives an octet and leaves none. -/
theorem cutOctets_eighth {held bits : List LineBit} (short : held.length < 8) (eight : held.length + bits.length = 8) :
    cutOctets held bits = ([takenOctet (held ++ bits)], []) := by
  induction bits generalizing held with
  | nil => simp at eight; omega
  | cons b rest ih =>
    rw [List.length_cons] at eight
    by_cases last : (held ++ [b]).length = 8
    · have none : rest = [] := List.eq_nil_of_length_eq_zero (by simp at last; omega)
      rw [cutOctets, if_pos last, none, cutOctets]
    · rw [cutOctets, if_neg last, ih (by simp at last ⊢; omega) (by simp; omega), List.append_assoc,
        List.singleton_append]

/-- R162: the value of an octet is that of the bits on data in. -/
theorem bitsOctet_congr {bits bits' : List LineBit} (same : bits.map LineBit.din = bits'.map LineBit.din) :
    bitsOctet bits = bitsOctet bits' := by
  have folded : ∀ l : List LineBit, bitsOctet l =
      (l.map LineBit.din).foldl (fun (acc : Byte) b => (acc <<< 1) ||| (if b then 1 else 0)) 0 := fun l => by
    rw [List.foldl_map]
    rfl
  rw [folded, same, ← folded]

/-- R162: an octet is classified by the level at its first bit, whatever the level at the others. -/
theorem takenOctet_spelled {bits : List LineBit} {b : Byte} {level : Bool}
    (spelled : bits.map LineBit.din = (octetBits true b).map LineBit.din)
    (first : bits.head?.map LineBit.param = some level) : takenOctet bits = (level, b) := by
  rw [takenOctet, first, bitsOctet_congr spelled, bitsOctet_octetBits]
  rfl

/-! ### Bits on a port (R162, R170, log 32) -/

/-- R170: the command in progress at the first bit of an octet: where a read element begins, its values are taken. -/
def atFirstBit (p : Port) (s : State) : Progress → Progress
  | .reading r none n => .reading r (some (readElement p s r)) n
  | c => c

/-- R162, R170: a port with the bits of an octet that is not complete. -/
def begun (p : Port) (bits : List LineBit) (s : State) : State := s.modPort p fun q =>
  { q with assembly := bits, cmd := if bits = [] then q.cmd else atFirstBit p s q.cmd }

theorem beginOctet_atFirstBit (p : Port) (s : State) :
    beginOctet p s = s.modPort p fun q => { q with cmd := atFirstBit p s q.cmd } := by
  unfold beginOctet
  split
  · next r n reading => exact State.modPort_congr s p (by simp only [reading, atFirstBit])
  · next other =>
    refine (State.modPort_eq s p _ ?_).symm
    unfold atFirstBit
    split
    · next r n reading => exact absurd reading (other r n)
    · rfl

/-- R170: the values of an element do not depend on the bits taken, nor on what data out has presented. -/
theorem atFirstBit_modPort (s : State) (p : Port) {g : PortRec → PortRec} (same : ∀ q, (g q).pointer = q.pointer)
    (c : Progress) : atFirstBit p (s.modPort p g) c = atFirstBit p s c := by
  have element : ∀ r, readElement p (s.modPort p g) r = readElement p s r := fun r => by
    cases r <;> simp only [readElement, State.port_modPort_same, same] <;> rfl
  unfold atFirstBit
  split <;> simp only [element]

/-- R162: the first bits of an octet, outside start-up. -/
theorem beginNext_bits {s : State} (running : s.starting = false) (p : Port) {bits : List LineBit} (some_bits : bits ≠ []) :
    beginNext p bits s = begun p bits s := by
  have started : (s.starting || bits.isEmpty) = false := by simp [running, some_bits]
  rw [beginNext, started, if_neg Bool.false_ne_true, begun, beginOctet_atFirstBit, State.modPort_modPort]
  refine State.modPort_congr s p ?_
  simp [atFirstBit_modPort, some_bits]

/-- R162: the bits left over begin an octet, if there are any and the octets before them have not begun start-up. -/
theorem beginNext_eq (p : Port) (bits : List LineBit) (s : State) :
    beginNext p bits s = if s.starting = true ∨ bits = [] then s else begun p bits s := by
  split
  · next idle =>
    refine if_pos ?_
    simpa using idle
  · next taken =>
    rw [not_or] at taken
    exact beginNext_bits (by simpa using taken.1) p taken.2

/-- R162: bits on a port that holds the first bits of an octet. -/
theorem clockBits_held {s : State} {p : Port} (ready : Ready s p) (held bits : List LineBit) :
    clockBits p bits (s.modPort p fun q => { q with assembly := held }) =
      beginNext p (cutOctets held bits).2 ((cutOctets held bits).1.foldl (takeOctet p) (opened p s)) := by
  obtain ⟨running, low, armed, _⟩ := ready
  simp [clockBits, takeBits, opened, running, low, armed]

/-- R162: bits that do not complete an octet join those before them. -/
theorem clockBits_short {s : State} {p : Port} (ready : Ready s p) {held bits : List LineBit}
    (short : held.length + bits.length < 8) :
    clockBits p bits (s.modPort p fun q => { q with assembly := held }) =
      (begun p (held ++ bits) s).modPort p fun q => { q with dataOut := [] } := by
  rw [clockBits_held ready, cutOctets_short short, List.foldl_nil]
  by_cases none : held ++ bits = []
  · rw [none, beginNext_nil, opened, begun, State.modPort_modPort]
    exact State.modPort_congr s p rfl
  · rw [beginNext_bits (s := opened p s) ready.1 p none, begun, begun, opened, State.modPort_modPort,
      State.modPort_modPort]
    refine State.modPort_congr s p ?_
    simp [atFirstBit_modPort]

/-- R162: the eighth bit gives the octet that the bits spell. -/
theorem clockBits_eighth {s : State} {p : Port} (ready : Ready s p) {held bits : List LineBit} {b : Byte} {level : Bool}
    (short : held.length < 8) (spelled : (held ++ bits).map LineBit.din = (octetBits true b).map LineBit.din)
    (first : (held ++ bits).head?.map LineBit.param = some level) :
    clockBits p bits (s.modPort p fun q => { q with assembly := held }) = takeOctet p (opened p s) (level, b) := by
  have eight : held.length + bits.length = 8 := by simpa [octetBits] using congrArg List.length spelled
  rw [clockBits_held ready, cutOctets_eighth short eight, takenOctet_spelled spelled first, beginNext_nil]
  rfl

/-- R162: the first bits of one more octet, behind whole octets. -/
theorem clockBits_tail {s : State} {p : Port} (ready : Ready s p) {bits tail : List LineBit}
    (whole : (cutOctets [] bits).2 = []) (short : tail.length < 8) :
    clockBits p (bits ++ tail) s = beginNext p tail (clockBits p bits s) := by
  have cut : cutOctets [] tail = ([], tail) := cutOctets_short (by simpa using short)
  rw [clockBits_ready ready, clockBits_ready ready, cutOctets_append, whole, cut, List.append_nil, beginNext_nil]

/-! ### Rows that go on with a command (R171, log 1) -/

/-- The rows that go on give their bits to their port. -/
theorem exec_goesOn {row : Clocked → Instr} {p : Port}
    (h : (∃ e ∈ elementRows, row = e p) ∨ ∃ c, row = fun x => commandRow c p (.more x)) (x : Clocked) (s : State) :
    exec (row x) s = .next (clockElement p x s) := by
  rcases h with ⟨e, mem, rfl⟩ | ⟨c, rfl⟩
  · exact exec_elementRow mem p x s
  · exact exec_commandRow c p (.more x) s

/-- A row gives its port the bits of whole octets, and then those of an octet that is not complete. -/
theorem exec_row_bits {row : Clocked → Instr} {p : Port}
    (h : (∃ e ∈ elementRows, row = e p) ∨
      ∃ c, (row = fun x => commandRow c p (.more x)) ∨ row = fun x => commandRow c p (.code x)) (os : List Byte) :
    ∃ bits, (cutOctets [] bits).2 = [] ∧ ∀ tail s, exec (row ⟨os, tail⟩) s = .next (clockBits p (bits ++ tail) s) := by
  have whole := congrArg Prod.snd (cutOctets_params os)
  rcases h with ⟨e, mem, rfl⟩ | ⟨c, rfl | rfl⟩
  · exact ⟨_, whole, fun tail s => exec_elementRow mem p ⟨os, tail⟩ s⟩
  · exact ⟨_, whole, fun tail s => exec_commandRow c p (.more ⟨os, tail⟩) s⟩
  · refine ⟨octetBits false (commandCode c) ++ os.flatMap (octetBits true), ?_, fun tail s => ?_⟩
    · rw [cutOctets_octet]
      exact whole
    · rw [exec_commandRow, List.append_assoc]
      rfl

/-- R162: the first bits of one more octet, behind the octets of a row. -/
theorem exec_row_tail {s : State} {p : Port} (ready : Ready s p) {row : Clocked → Instr}
    (h : (∃ e ∈ elementRows, row = e p) ∨
      ∃ c, (row = fun x => commandRow c p (.more x)) ∨ row = fun x => commandRow c p (.code x)) {os : List Byte}
    {tail : List LineBit} {w : State} (short : tail.length < 8) (run : exec (row (Clocked.whole os)) s = .next w) :
    exec (row ⟨os, tail⟩) s = .next (if w.starting = true ∨ tail = [] then w else begun p tail w) := by
  obtain ⟨bits, whole, clocks⟩ := exec_row_bits h os
  have at_bits := (clocks [] s).symm.trans run
  rw [List.append_nil] at at_bits
  obtain rfl := Host.Outcome.next.inj at_bits
  rw [clocks, clockBits_tail ready whole short, beginNext_eq]

end Sys2Proof.Machine

namespace Sys2Proof.Machine

/-- Octets that are not none are some and a last one. -/
theorem exists_last {os : List Byte} (some_os : os ≠ []) : ∃ init last, os = init ++ [last] :=
  ⟨os.dropLast, os.getLast some_os, (List.dropLast_append_getLast some_os).symm⟩

/-! ### Parameters in parts (R166, R171) -/

/-- R164, R166: an accepted code of a fixed command leaves its port collecting. -/
theorem acceptCode_fixed {c : Command} (fixed : isFixed c = true) (p : Port) (s : State) :
    acceptCode p c s = setCmd p (.collecting c []) (setCodeResult p (commandCode c) .incomplete s) := by
  cases c <;> first | exact absurd fixed Bool.false_ne_true | rfl

/-- A command takes effect on an IDLE port, whatever has been collected. -/
theorem complete_modPort {s : State} {p : Port} (c : Command) (os : List Byte) {f g : PortRec → PortRec}
    (same : { f (s.port p) with cmd := .idle } = { g (s.port p) with cmd := .idle }) :
    complete p c os (s.modPort p f) = complete p c os (s.modPort p g) := by
  have idle : setCmd p .idle (s.modPort p f) = setCmd p .idle (s.modPort p g) := by
    rw [setCmd, setCmd, State.modPort_modPort, State.modPort_modPort]
    exact State.modPort_congr s p same
  unfold complete
  rw [idle]

section

variable {s : State} {p : Port} {c : Command} {os : List Byte}

/-- R166: the code of a fixed command, and fewer parameters than it has. -/
theorem clockBurst_incomplete (ready : Ready s p) (fixed : isFixed c = true) (accepted : refusalOf s p c = none)
    (short : os.length < paramCount (p == .venue) c) :
    clockBurst c p (Burst.whole os) s = portAfter p (commandCode c) .incomplete (.collecting c os) os.length s := by
  rw [clockBurst_accepted ready accepted, acceptCode_fixed fixed,
    takeOctets_collecting (c := c) (os := []) (by exact ready.1) (by simp [setCmd]) os
      (by simpa using short)]
  simp only [setCmd, setCodeResult, portAfter, State.modPort_modPort]
  refine State.modPort_congr s p ?_
  simp [ready.2.2.2]

variable (ready : Ready s p) (collecting : (s.port p).cmd = .collecting c os) {rest : List Byte}
include ready collecting

/-- R166: more parameters, but not all. -/
theorem clockElement_incomplete (short : os.length + rest.length < paramCount (p == .venue) c) :
    clockElement p (Clocked.whole rest) s = s.modPort p fun q =>
      { q with cmd := .collecting c (os ++ rest), dataOut := List.replicate rest.length 0 } := by
  rw [clockElement_whole ready,
    takeOctets_collecting (s := opened p s) ready.1 (by simpa [opened] using collecting) rest short, opened,
    State.modPort_modPort]
  refine State.modPort_congr s p ?_
  simp [ready.2.2.2]

/-- R166: the last parameters of a fixed command complete it. -/
theorem clockElement_complete (some_rest : rest ≠ []) (whole : os.length + rest.length = paramCount (p == .venue) c) :
    clockElement p (Clocked.whole rest) s =
      complete p c (os ++ rest) (s.modPort p fun q => { q with dataOut := List.replicate rest.length 0 }) := by
  obtain ⟨init, last, rfl⟩ := exists_last some_rest
  rw [List.length_append, List.length_singleton] at whole
  rw [clockElement_whole ready, List.map_append, List.foldl_append,
    takeOctets_collecting (s := opened p s) ready.1 (by simpa [opened] using collecting) init (by omega),
    List.map_singleton, List.foldl_cons, List.foldl_nil,
    takeOctet_last (c := c) (os := os ++ init) (by exact ready.1) (by simp)
      last (by rw [List.length_append]; omega),
    List.append_assoc, present, opened, State.modPort_modPort, State.modPort_modPort]
  refine complete_modPort c _ ?_
  simp [ready.2.2.2, List.replicate_succ']

end

/-! ### Elements in parts (R169 to R171) -/

section

variable {s : State} {p : Port} (ready : Ready s p) {rest : List Byte}
include ready

/-- R169: octets of an element of a streamed write that do not end it. -/
theorem clockElement_partWritten {w : WriteTo} {part : List Byte} (streaming : (s.port p).cmd = .streaming w part)
    (short : part.length + rest.length < writeSize w) :
    clockElement p (Clocked.whole rest) s = s.modPort p fun q =>
      { q with cmd := .streaming w (part ++ rest), dataOut := List.replicate rest.length 0 } := by
  rw [clockElement_whole ready, takeOctets_streaming (s := opened p s) ready.1 (by simpa [opened] using streaming) rest short,
    opened, State.modPort_modPort]
  refine State.modPort_congr s p ?_
  simp [ready.2.2.2]

/-- R169: the last octets of an element of a streamed write give it to its block. -/
theorem clockElement_written {w : WriteTo} {part : List Byte} (streaming : (s.port p).cmd = .streaming w part)
    (some_rest : rest ≠ []) (whole : part.length + rest.length = writeSize w) :
    clockElement p (Clocked.whole rest) s = applyElement p w (part ++ rest) (s.modPort p fun q =>
      { q with cmd := .streaming w [], dataOut := List.replicate rest.length 0 }) := by
  obtain ⟨init, last, rfl⟩ := exists_last some_rest
  rw [List.length_append, List.length_singleton] at whole
  have ends : (part ++ (init ++ [last])).length = writeSize w := by simp; omega
  rw [clockElement_whole ready, List.map_append, List.foldl_append,
    takeOctets_streaming (s := opened p s) ready.1 (by simpa [opened] using streaming) init (by omega),
    List.map_singleton, List.foldl_cons, List.foldl_nil,
    takeOctet_param (by exact ready.1) (by simp)]
  simp only [takeParam, present, State.port_modPort_same, List.append_assoc, if_pos ends]
  refine congrArg (applyElement p w _) ?_
  simp only [setCmd, opened, State.modPort_modPort]
  refine State.modPort_congr s p ?_
  simp [ready.2.2.2, List.replicate_succ']

/-- R163: octets on an IDLE port are ignored. -/
theorem clockElement_idle (idle : (s.port p).cmd = .idle) :
    clockElement p (Clocked.whole rest) s = s.modPort p fun q => { q with dataOut := List.replicate rest.length 0 } := by
  rw [clockElement_whole ready, takeOctets_idle (s := opened p s) ready.1 (by simpa [opened] using idle), opened,
    State.modPort_modPort]
  refine State.modPort_congr s p ?_
  simp [ready.2.2.2]

/-- R170: octets of an element of a read that do not end it. -/
theorem clockElement_partRead {r : ReadFrom} {el : List Byte} {n : Nat}
    (reading : (s.port p).cmd = .reading r (some el) n) (short : n + rest.length < readSize r) :
    clockElement p (Clocked.whole rest) s = s.modPort p fun q =>
      { q with
        cmd := .reading r (some el) (n + rest.length)
        dataOut := (List.range' n rest.length).map fun i => el.getD i 0 } := by
  rw [clockElement_whole ready, takeOctets_held (s := opened p s) ready.1 (by simpa [opened] using reading) rest short,
    opened, State.modPort_modPort]
  refine State.modPort_congr s p ?_
  simp [ready.2.2.2]

end

/-- R168, R170: the last octet of an element moves the read on. -/
theorem countOctet_last {r : ReadFrom} (element : ∀ reply, r ≠ .reply reply) {pos : Nat} (last : pos + 1 = readSize r)
    (p : Port) (held : Option (List Byte)) (s : State) :
    countOctet p r held pos s = s.modPort p fun q =>
      { q with
        cmd := .reading (nextRead s r) none 0
        pointer := if windowedRead r = true then nextPointer q else q.pointer } := by
  have ends : ¬ pos + 1 < readSize r := by omega
  have counted : countOctet p r held pos s =
      if windowedRead r then advancePointer p (setCmd p (.reading (nextRead s r) none 0) s)
      else setCmd p (.reading (nextRead s r) none 0) s := by
    cases r with
    | reply os => exact absurd rfl (element os)
    | _ => simp only [countOctet, if_neg ends]
  rw [counted]
  split
  · rw [advancePointer, setCmd, State.modPort_modPort]
    rfl
  · rfl

/-- R168, R170: the last octets of an element of a read. -/
theorem clockElement_read {s : State} {p : Port} (ready : Ready s p) {r : ReadFrom} {el rest : List Byte} {n : Nat}
    (reading : (s.port p).cmd = .reading r (some el) n) (element : ∀ reply, r ≠ .reply reply) (some_rest : rest ≠ [])
    (whole : n + rest.length = readSize r) :
    clockElement p (Clocked.whole rest) s = s.modPort p fun q =>
      { q with
        cmd := .reading (nextRead s r) none 0
        pointer := if windowedRead r = true then nextPointer q else q.pointer
        dataOut := (List.range' n rest.length).map fun i => el.getD i 0 } := by
  obtain ⟨init, last, rfl⟩ := exists_last some_rest
  rw [List.length_append, List.length_singleton] at whole
  have next : ∀ g, nextRead (s.modPort p g) r = nextRead s r := fun g => by cases r <;> rfl
  rw [clockElement_whole ready, List.map_append, List.foldl_append,
    takeOctets_held (s := opened p s) ready.1 (by simpa [opened] using reading) init (by omega),
    List.map_singleton, List.foldl_cons, List.foldl_nil,
    takeOctet_held (r := r) (el := el) (pos := n + init.length) (by exact ready.1) (by simp),
    countOctet_last element (by omega), present, opened]
  simp only [State.modPort_modPort, next]
  refine State.modPort_congr s p ?_
  simp [ready.2.2.2, nextPointer, List.range'_1_concat]

/-- R167: octets of a fixed-length reply, and past its end: nothing further is counted, and 00h is presented. -/
theorem takeOctets_pastReply {s : State} {p : Port} {el : List Byte} {n : Nat} (running : s.starting = false)
    (reading : (s.port p).cmd = .reading (.reply el) (some el) (min n el.length)) (os : List Byte) :
    (os.map fun b => (true, b)).foldl (takeOctet p) s = s.modPort p fun q =>
      { q with
        cmd := .reading (.reply el) (some el) (min (n + os.length) el.length)
        dataOut := q.dataOut ++ (List.range' n os.length).map fun i => el.getD i 0 } := by
  induction os generalizing s n with
  | nil => exact (State.modPort_eq s p _ (by simp [← reading])).symm
  | cons b rest ih =>
    have due : el.getD (min n el.length) 0 = el.getD n 0 := by
      by_cases inside : n < el.length
      · rw [min_eq_left inside.le]
      · rw [min_eq_right (not_lt.mp inside), List.getD_eq_default _ _ le_rfl, List.getD_eq_default _ _ (not_lt.mp inside)]
    have count : min (min n el.length + 1) el.length = min (n + 1) el.length := by omega
    have taken : takeOctet p s (true, b) = s.modPort p fun q =>
        { q with
          cmd := .reading (.reply el) (some el) (min (n + 1) el.length)
          dataOut := q.dataOut ++ [el.getD n 0] } := by
      rw [takeOctet_held running reading, countOctet, setCmd, present, State.modPort_modPort, due, count]
    rw [List.map_cons, List.foldl_cons, taken, ih (n := n + 1) (by exact running) (by simp),
      State.modPort_modPort]
    refine State.modPort_congr s p ?_
    simp [List.range'_succ, Nat.add_assoc, Nat.add_comm 1]

/-- R167: octets of a fixed-length reply, and past its end, in a later burst. -/
theorem clockElement_reply {s : State} {p : Port} (ready : Ready s p) {el : List Byte} {n : Nat}
    (reading : (s.port p).cmd = .reading (.reply el) (some el) n) (within : n ≤ el.length) (rest : List Byte) :
    clockElement p (Clocked.whole rest) s = s.modPort p fun q =>
      { q with
        cmd := .reading (.reply el) (some el) (min (n + rest.length) el.length)
        dataOut := (List.range' n rest.length).map fun i => el.getD i 0 } := by
  rw [clockElement_whole ready, takeOctets_pastReply (s := opened p s) (el := el) (n := n) ready.1
    (by simpa [opened, min_eq_left within] using reading), opened, State.modPort_modPort]
  refine State.modPort_congr s p ?_
  simp [ready.2.2.2]

/-! ### A broken octet (R162, R172) -/

/-- R162: the eighth bit of a broken octet: a parameter octet goes on with the command of the port, and a command code
is taken as at a row of its own. -/
theorem exec_eighth {s : State} {p : Port} (ready : Ready s p) {row : Clocked → Instr}
    (goesOn : ∀ x s, exec (row x) s = .next (clockElement p x s)) {held tail : List LineBit} {b : Byte} {level : Bool}
    (short : held.length < 8) (spelled : (held ++ tail).map LineBit.din = (octetBits true b).map LineBit.din)
    (first : (held ++ tail).head?.map LineBit.param = some level) :
    exec (row ⟨[], tail⟩) (s.modPort p fun q => { q with assembly := held }) =
      if level = true then exec (row (Clocked.whole [b])) s else exec (.unknownCommand p b (Clocked.whole [])) s := by
  have taken := clockBits_eighth ready short spelled first
  rw [goesOn, goesOn]
  refine (congrArg Host.Outcome.next taken).trans ?_
  cases level with
  | true => exact congrArg Host.Outcome.next (clockElement_whole ready [b]).symm
  | false => exact congrArg Host.Outcome.next (clockCode_whole ready b []).symm

end Sys2Proof.Machine

namespace Sys2Proof.Machine.Settled

/-- Settles O8: parameters, elements and replies in parts, each by its lemma about the port (`clockElement_incomplete` and
those after it), bits that complete no octet (`clockBits_short`), the eighth bit (`exec_eighth`), and the bits behind the
octets of a row (`exec_row_tail`). -/
theorem octetsInParts : Obligations.OctetsInParts := by
  intro s p os rest ready
  refine ⟨fun c fixed => ⟨fun accepted short => ?_, fun collecting short => ?_, fun collecting some_rest whole => ?_⟩, ?_⟩
  · rw [exec_commandRow, clockBurst_incomplete ready fixed accepted short]
  · exact (exec_commandRow c p _ s).trans (congrArg _ (clockElement_incomplete ready collecting short))
  · exact (exec_commandRow c p _ s).trans (congrArg _ (clockElement_complete ready collecting some_rest whole))
  intro begin
  have joins : ∀ x bits, begin x bits = begun p bits x := fun x bits => by
    refine State.modPort_congr x p ?_
    cases (x.port p).cmd with
    | reading r held n => cases held <;> cases bits <;> rfl
    | _ => cases bits <;> rfl
  refine ⟨fun row part => ?_, fun row any tail w short run => ?_⟩
  · have goesOn := exec_goesOn part
    refine ⟨fun w streaming => ⟨fun short => ?_, fun some_rest whole => ?_⟩,
      fun r el n reading => ⟨fun short => ?_, fun element some_rest whole => ?_, ?_⟩, fun idle => ?_,
      fun held tail held_short => ⟨fun short => ?_, fun b level spelled first => ?_⟩⟩
    · rw [goesOn, clockElement_partWritten ready streaming short]
    · rw [goesOn, clockElement_written ready streaming some_rest whole]
    · rw [goesOn, clockElement_partRead ready reading short]
    · rw [goesOn, clockElement_read ready reading element some_rest whole]
    · rintro rfl within
      rw [goesOn, clockElement_reply ready reading within]
    · rw [goesOn, clockElement_idle ready idle]
    · rw [goesOn, joins]
      exact congrArg Host.Outcome.next (clockBits_short ready short)
    · exact exec_eighth ready goesOn held_short spelled first
  · rw [exec_row_tail ready any short run, joins]

end Sys2Proof.Machine.Settled

namespace Sys2Proof.Machine

/-! ### What shared effects leave of the commands that wait

The commands that wait are outside every block of the part, so each effect leaves them: one lemma for each function, in the
order of the model. -/

/-- Passes, and the SETs they owe, leave the commands that wait. -/
theorem pending_of_outsidePasses {s t : State} (same : outsidePasses t = outsidePasses s) : t.pending = s.pending := by
  have kept : (outsidePasses t).pending = (outsidePasses s).pending := congrArg State.pending same
  exact kept

section

variable (s : State)

@[simp] theorem pending_setResult (p : Port) (r : Result) : (setResult p r s).pending = s.pending := rfl

@[simp] theorem pending_markResult (p : Port) (hit : Bool) (r : Result) : (markResult p hit r s).pending = s.pending := by
  unfold markResult
  split <;> rfl

@[simp] theorem pending_gainMovesIdle (t : Tenant) : (gainMovesIdle t s).pending = s.pending := rfl
@[simp] theorem pending_gainStoreDone : (gainStoreDone s).pending = s.pending := rfl
@[simp] theorem pending_setCodeResult (p : Port) (b : Byte) (r : Result) : (setCodeResult p b r s).pending = s.pending := rfl
@[simp] theorem pending_setCmd (p : Port) (c : Progress) : (setCmd p c s).pending = s.pending := rfl
@[simp] theorem pending_advancePointer (p : Port) : (advancePointer p s).pending = s.pending := rfl

@[simp] theorem pending_endFromOutside (p : Port) : (endFromOutside p s).pending = s.pending := by
  rw [endFromOutside_eq]

/-! ### The log, the transmit queues and passes -/

@[simp] theorem pending_appendLog (e : Entry) : (appendLog e s).pending = s.pending := by rw [appendLog_eq]
@[simp] theorem pending_logZone (k : LogKind) (v : Visibility) (z : Zone) : (logZone k v z s).pending = s.pending :=
  pending_appendLog s _
@[simp] theorem pending_logAlarm (k : LogKind) (v : Visibility) (z : Zone) (c : AlarmClass) :
    (logAlarm k v z c s).pending = s.pending := pending_appendLog s _
@[simp] theorem pending_logCarrier (k : LogKind) (t : Tenant) (x : Sector) : (logCarrier k t x s).pending = s.pending :=
  pending_appendLog s _

@[simp] theorem pending_setReader (p : Port) (r : Reader) : (s.setReader p r).pending = s.pending := by rw [setReader_eq]

@[simp] theorem pending_readLog (p : Port) (r : Reader) : (readLog p r s).2.pending = s.pending := by
  obtain ⟨n, read, _⟩ := readLog_eq p r s
  rw [read]
  exact pending_setReader s p _

@[simp] theorem pending_startQueued (f : FPort) : (startQueued f s).pending = s.pending :=
  pending_of_outsidePasses (outsidePasses_startQueued f s)
@[simp] theorem pending_queueSet (z : Zone) : (queueSet z s).pending = s.pending :=
  pending_of_outsidePasses (outsidePasses_queueSet z s)
@[simp] theorem pending_takeOwed (f : FPort) : (takeOwed f s).pending = s.pending :=
  pending_of_outsidePasses (outsidePasses_takeOwed f s)
@[simp] theorem pending_passResults (z : Zone) : (passResults z s).pending = s.pending :=
  pending_of_outsidePasses (outsidePasses_passResults z s)
@[simp] theorem pending_pass (z : Zone) : (pass z s).pending = s.pending :=
  pending_of_outsidePasses (outsidePasses_pass z s)
@[simp] theorem pending_passes (sel : Zone → Bool) : (passes sel s).pending = s.pending :=
  pending_of_outsidePasses (outsidePasses_passes sel s)
@[simp] theorem pending_passAll : (passAll s).pending = s.pending := pending_passes s _
@[simp] theorem pending_passDimmed (before : State) : (passDimmed before s).pending = s.pending := pending_passes s _

/-! ### Moves, targets and the close of an event -/

@[simp] theorem pending_settle : (settle s).pending = s.pending := by
  obtain ⟨n, e, _⟩ := settle_admissions s
  rw [e, grantAndPass, pending_passes, (grantSlots_started 8 _).1]
  change (admitNext^[n] s).pending = s.pending
  rw [iterate_admitNext_eq]

@[simp] theorem pending_finish (before : State) : (finish before s).pending = s.pending := by
  rw [finish, raiseIdle_eq]
  dsimp only
  split
  · exact pending_settle s
  · rfl

@[simp] theorem pending_setTarget (z : Zone) (t : Tenant) (d : Dest) (src : Origin) :
    (setTarget z t d src s).pending = s.pending := by
  unfold setTarget
  split
  · rfl
  · split
    · dsimp only
      split <;> simp
    · split
      · rfl
      · split
        · unfold retargetMove
          split <;> simp
        · simp

@[simp] theorem pending_outage (z : Zone) : (outage z s).pending = s.pending := rfl

@[simp] theorem pending_rampExpiry : (rampExpiry s).pending = s.pending := by
  unfold rampExpiry
  split
  · rfl
  · dsimp only
    rw [pending_finish, pending_passes, foldl_completeMove_eq]

/-! ### Remote supervision -/

@[simp] theorem pending_modAlarm (z : Zone) (c : AlarmClass) (f : AlarmRec → AlarmRec) :
    (modAlarm z c f s).pending = s.pending := rfl

@[simp] theorem pending_enterIsolated (z : Zone) (cause : IsolationCause) : (enterIsolated z cause s).pending = s.pending := by
  unfold enterIsolated
  dsimp only
  rw [pending_queueSet, pending_passResults]
  split <;> simp

@[simp] theorem pending_enterLost (z : Zone) : (enterLost z s).pending = s.pending := by
  rw [enterLost, pending_pass, pending_outage, State.modRemote_pending]

@[simp] theorem pending_handleMiss (z : Zone) : (handleMiss z s).pending = s.pending := by
  unfold handleMiss
  dsimp only
  split
  · rfl
  · split <;> simp
  · split <;> simp
  · split <;> simp
  · rfl
  · rfl

@[simp] theorem pending_replyOverdrive (z : Zone) (st : Status) : (replyOverdrive z st s).pending = s.pending := by
  unfold replyOverdrive
  dsimp only
  split
  · split <;> simp
  · rfl

@[simp] theorem pending_replyAlarm (z : Zone) (st : Status) (c : AlarmClass) : (replyAlarm z st c s).pending = s.pending := by
  unfold replyAlarm
  dsimp only
  split
  · split
    · rfl
    · split <;> simp
  · split
    · rfl
    · split <;> simp

@[simp] theorem pending_replyAlarms (z : Zone) (st : Status) : (replyAlarms z st s).pending = s.pending :=
  foldl_keeps State.pending _ (fun a c => pending_replyAlarm a z st c) _ s

@[simp] theorem pending_replyEscalation (z : Zone) : (replyEscalation z s).pending = s.pending := by
  unfold replyEscalation
  dsimp only
  split
  · rfl
  · split <;> simp

@[simp] theorem pending_enterService (z : Zone) : (enterService z s).pending = s.pending := by
  unfold enterService
  dsimp only
  split <;> simp

@[simp] theorem pending_replyService (z : Zone) : (replyService z s).pending = s.pending := by
  unfold replyService
  split
  · split <;> simp
  · split <;> simp
  · split <;> simp
  · split <;> simp
  · rfl
  · rfl

@[simp] theorem pending_replyOccupancy (z : Zone) (st : Status) : (replyOccupancy z st s).pending = s.pending := by
  unfold replyOccupancy
  split <;> rfl

@[simp] theorem pending_replyEcho (z : Zone) (st : Status) : (replyEcho z st s).pending = s.pending := by
  unfold replyEcho
  split
  · split <;> simp
  · rfl

@[simp] theorem pending_handleReply (z : Zone) (st : Status) : (handleReply z st s).pending = s.pending := by
  simp [handleReply, replyCounts]

/-! ### The Link Controllers -/

@[simp] theorem pending_logLost (f : FPort) (ps : List Pos) : (logLost f ps s).pending = s.pending :=
  foldl_keeps State.pending _ (fun a p => by split <;> simp) ps s

@[simp] theorem pending_markBehind (f : FPort) (ps : List Pos) : (markBehind f ps s).pending = s.pending :=
  foldl_keeps State.pending _ (fun a p => by split <;> rfl) ps s

@[simp] theorem pending_clearLost (f : FPort) : (clearLost f s).pending = s.pending :=
  foldl_keeps State.pending _ (fun a p => by split <;> rfl) _ s

@[simp] theorem pending_groupEntries (f : FPort) (results : List (Pos × Bool)) :
    (groupEntries f results s).pending = s.pending := by
  unfold groupEntries
  dsimp only
  split
  · rfl
  · split
    · simp
    · split
      · split <;> simp
      · simp

@[simp] theorem pending_endRound (f : FPort) (results : List (Pos × Bool)) : (endRound f results s).pending = s.pending := by
  simp [endRound, roundEnd]

@[simp] theorem pending_startTurn (f : FPort) (pos : Pos) (results : List (Pos × Bool)) (k : Nat) :
    (startTurn f pos results k s).pending = s.pending := rfl

@[simp] theorem pending_beginTurn (f : FPort) (pos : Pos) (results : List (Pos × Bool)) :
    (beginTurn f pos results s).pending = s.pending := by
  unfold beginTurn
  split <;> simp

@[simp] theorem pending_afterClose (f : FPort) (pos : Pos) (results : List (Pos × Bool)) :
    (afterClose f pos results s).pending = s.pending := by
  unfold afterClose
  split <;> simp

@[simp] theorem pending_deliver (f : FPort) (pos : Pos) (reply : Option Status) : (deliver f pos reply s).pending = s.pending := by
  unfold deliver
  split
  · rfl
  · split <;> simp

@[simp] theorem pending_closeWindow (f : FPort) (reply : Option Status) : (closeWindow f reply s).pending = s.pending := by
  unfold closeWindow
  split <;> simp

@[simp] theorem pending_startRound (f : FPort) : (startRound f s).pending = s.pending := by
  rw [startRound_eq, State.modLink_pending]

@[simp] theorem pending_pollExpiry : (pollExpiry s).pending = s.pending := by
  unfold pollExpiry
  split
  · rfl
  · exact foldl_keeps State.pending _ (fun a f => pending_startRound a f) _ _

@[simp] theorem pending_pollEnd (f : FPort) : (pollEnd f s).pending = s.pending := by
  unfold pollEnd
  split
  · split <;> rfl
  · rfl

@[simp] theorem pending_replyExpiry (f : FPort) : (replyExpiry f s).pending = s.pending := by
  unfold replyExpiry
  split <;> simp

@[simp] theorem pending_reportFrame (f : FPort) (fr : Frame) : (reportFrame f fr s).pending = s.pending := by
  unfold reportFrame reportSet
  split
  · split <;> rfl
  · rfl

@[simp] theorem pending_sendNext (f : FPort) : (sendNext f s).pending = s.pending := by
  unfold sendNext
  split
  · split <;> simp
  · simp

@[simp] theorem pending_frameEnd (f : FPort) : (frameEnd f s).pending = s.pending := by
  unfold frameEnd
  split
  · split <;> simp
  · rfl

@[simp] theorem pending_roundAtLoss (f : FPort) : (roundAtLoss f s).pending = s.pending := by
  unfold roundAtLoss
  split <;> simp

@[simp] theorem pending_lockLost (f : FPort) : (lockLost f s).pending = s.pending := by
  unfold lockLost
  dsimp only
  split <;> simp

@[simp] theorem pending_lockBack (f : FPort) : (lockBack f s).pending = s.pending := by
  unfold lockBack
  dsimp only
  split <;> simp

@[simp] theorem pending_frameDone (f : FPort) (os : List Byte) : (frameDone f os s).pending = s.pending := by
  unfold frameDone
  dsimp only
  split <;> simp

@[simp] theorem pending_takeDataOctet (f : FPort) (b : Byte) : (takeDataOctet f b s).pending = s.pending := by
  unfold takeDataOctet
  split
  · rfl
  · split <;> rfl
  · dsimp only
    split <;> simp

@[simp] theorem pending_takeChars (f : FPort) (cs : List LineChar) : (takeChars f cs s).pending = s.pending := by
  refine foldl_keeps State.pending _ (fun a c => ?_) cs s
  unfold takeChar
  split
  · rfl
  · split
    · split <;> rfl
    · simp

/-! ### The commands of a tenant -/

@[simp] theorem pending_targetElement (t : Tenant) (b : Byte) : (targetElement t b s).pending = s.pending := by
  rw [targetElement, pending_advancePointer]
  split
  · rfl
  · split <;> simp

@[simp] theorem pending_requestMove (t : Tenant) (zone dest : Byte) : (requestMove t zone dest s).pending = s.pending := by
  unfold requestMove
  split
  · split <;> simp
  · rfl

@[simp] theorem pending_cancelMove (t : Tenant) (zone : Byte) : (cancelMove t zone s).pending = s.pending := by
  unfold cancelMove
  split
  · rfl
  · split <;> simp

@[simp] theorem pending_alternatesElement (t : Tenant) (os : List Byte) : (alternatesElement t os s).pending = s.pending := by
  rw [alternatesElement, pending_advancePointer]
  split <;> rfl

@[simp] theorem pending_setLevel (t : Tenant) (k hi lo : Byte) : (setLevel t k hi lo s).pending = s.pending := by
  unfold setLevel storeLevel
  split
  · rfl
  · dsimp only
    split <;> simp

@[simp] theorem pending_setScene (t : Tenant) (k : Slot) (x : Option (Vector SceneEntry 48)) :
    (setScene t k x s).pending = s.pending := rfl

@[simp] theorem pending_storeScene (t : Tenant) (slot : Byte) : (storeScene t slot s).pending = s.pending := by
  unfold storeScene
  split <;> rfl

@[simp] theorem pending_clearScene (t : Tenant) (slot : Byte) : (clearScene t slot s).pending = s.pending := by
  unfold clearScene
  split <;> rfl

@[simp] theorem pending_sceneElement (t : Tenant) (k : Slot) (b : Byte) : (sceneElement t k b s).pending = s.pending := by
  rw [sceneElement, pending_advancePointer]
  split <;> rfl

@[simp] theorem pending_recallEntry (t : Tenant) (scene : Vector SceneEntry 48) (z : Zone) :
    (recallEntry t scene s z).pending = s.pending := by
  unfold recallEntry
  split
  · rfl
  · split
    · rfl
    · split <;> simp [setHoldOff]

@[simp] theorem pending_recallScene (t : Tenant) (slot : Byte) : (recallScene t slot s).pending = s.pending := by
  unfold recallScene
  split
  · rfl
  · split
    · rfl
    · rw [pending_finish, foldl_keeps State.pending _ (fun a z => pending_recallEntry a t _ z), pending_setResult]

@[simp] theorem pending_setSpreading (t : Tenant) (a b c d e f g i : Byte) :
    (setSpreading t a b c d e f g i s).pending = s.pending := by
  unfold setSpreading
  dsimp only
  split <;> rfl

@[simp] theorem pending_setWindow (p : Port) (a b : Byte) : (setWindow p a b s).pending = s.pending := by
  unfold setWindow
  split
  · split <;> rfl
  · rfl

/-! ### The commands of the venue -/

@[simp] theorem pending_admitRecord (t : Tenant) (quota count : Nat) : (admitRecord t quota count s).pending = s.pending := by
  simp [admitRecord, evalLog]

@[simp] theorem pending_admitTenant (t quota count : Byte) : (admitTenant t quota count s).pending = s.pending := by
  unfold admitTenant
  split
  · rfl
  · split
    · rfl
    · split
      · rfl
      · split <;> simp

@[simp] theorem pending_setQuota (t share : Byte) : (setQuota t share s).pending = s.pending := by
  unfold setQuota
  split
  · rfl
  · split
    · rfl
    · split
      · rfl
      · dsimp only
        split <;> simp

@[simp] theorem pending_suspendTenant (t : Byte) : (suspendTenant t s).pending = s.pending := by
  unfold suspendTenant
  split
  · rfl
  · split <;> simp [suspendRecord, dropTenantMoves]

@[simp] theorem pending_resumeTenant (t : Byte) : (resumeTenant t s).pending = s.pending := by
  unfold resumeTenant
  split
  · rfl
  · split <;> simp

@[simp] theorem pending_retireTenant (t : Byte) : (retireTenant t s).pending = s.pending := by
  unfold retireTenant
  split
  · rfl
  · split <;> simp [retirePort, retireRecord, dropTenantMoves]

@[simp] theorem pending_storeLive (z : Zone) (v : Nat) : (storeLive z v s).pending = s.pending := by
  unfold storeLive
  dsimp only
  split <;> simp

@[simp] theorem pending_setLimit (zone hi lo : Byte) : (setLimit zone hi lo s).pending = s.pending := by
  unfold setLimit
  split <;> simp

@[simp] theorem pending_limitElement (hi lo : Byte) : (limitElement hi lo s).pending = s.pending := by
  simp [limitElement]

@[simp] theorem pending_pinRecord (z : Zone) : (pinRecord z s).pending = s.pending := rfl

@[simp] theorem pending_pinZone (zone : Byte) : (pinZone zone s).pending = s.pending := by
  unfold pinZone
  split
  · rfl
  · split <;> simp

@[simp] theorem pending_unpinZone (zone : Byte) : (unpinZone zone s).pending = s.pending := by
  unfold unpinZone
  split <;> rfl

@[simp] theorem pending_setMode (m : VenueMode) : (setMode m s).pending = s.pending := pending_passDimmed _ s

@[simp] theorem pending_setVenueMode (mode : Byte) : (setVenueMode mode s).pending = s.pending := by
  unfold setVenueMode
  split <;> simp

@[simp] theorem pending_setStandbyClasses (flags : Byte) : (setStandbyClasses flags s).pending = s.pending := by
  simp [setStandbyClasses]

@[simp] theorem pending_setWake (hi lo n : Byte) : (setWake hi lo n s).pending = s.pending := by
  rw [setWake, pending_setResult]

@[simp] theorem pending_setDerate (cls derate : Byte) : (setDerate cls derate s).pending = s.pending := by
  unfold setDerate storeDerate
  split
  · rfl
  · dsimp only
    split <;> simp

@[simp] theorem pending_setEscalation (cls n : Byte) : (setEscalation cls n s).pending = s.pending := by
  unfold setEscalation
  split <;> rfl

@[simp] theorem pending_setSupervision (a b c d : Byte) : (setSupervision a b c d s).pending = s.pending := rfl
@[simp] theorem pending_setRamp (a b : Byte) : (setRamp a b s).pending = s.pending := by
  rw [setRamp, pending_setResult]
@[simp] theorem pending_setCensus (a : Byte) : (setCensus a s).pending = s.pending := by
  rw [setCensus, pending_setResult]
@[simp] theorem pending_weightElement (i : Fin 16) (b : Byte) : (weightElement i b s).pending = s.pending := rfl

@[simp] theorem pending_isolateRemote (zone : Byte) : (isolateRemote zone s).pending = s.pending := by
  unfold isolateRemote
  split
  · rfl
  · split <;> simp

@[simp] theorem pending_restoreRemote (zone : Byte) : (restoreRemote zone s).pending = s.pending := by
  unfold restoreRemote
  split
  · rfl
  · split <;> simp

@[simp] theorem pending_writeStorePage (page : Byte) (records : Vector Byte 32) :
    (writeStorePage page records s).pending = s.pending := by
  unfold writeStorePage
  split
  · rfl
  · split
    · rfl
    · split
      · rfl
      · split <;> rfl

@[simp] theorem pending_lockStorePage (page : Byte) : (lockStorePage page s).pending = s.pending := by
  unfold lockStorePage
  split
  · rfl
  · split
    · rfl
    · split
      · rfl
      · split <;> rfl

@[simp] theorem pending_readStorePage (page : Byte) : (readStorePage page s).pending = s.pending := by
  unfold readStorePage
  split
  · rfl
  · split <;> rfl

/-! ### The census -/

@[simp] theorem pending_balanceSector (t : Tenant) (x : State × Vector Nat 6) (k : Sector) :
    (balanceSector t x k).1.pending = x.1.pending := by
  unfold balanceSector
  dsimp only
  split
  · split <;> simp [propose]
  · rfl

@[simp] theorem pending_censusTenant (t : Tenant) : (censusTenant t s).pending = s.pending := by
  have turns : ∀ (l : List Sector) (x : State × Vector Nat 6), (l.foldl (balanceSector t) x).1.pending = x.1.pending := by
    intro l
    induction l with
    | nil => exact fun _ => rfl
    | cons k rest ih => exact fun x => (ih _).trans (pending_balanceSector t x k)
  unfold censusTenant balance
  split
  · split
    · exact turns _ _
    · rfl
  · rfl

@[simp] theorem pending_wakeStep : (wakeStep s).pending = s.pending := by
  unfold wakeStep
  split
  · split <;> simp
  · rfl

@[simp] theorem pending_countHoldOffs : (countHoldOffs s).pending = s.pending := rfl

@[simp] theorem pending_censusExpiry : (censusExpiry s).pending = s.pending := by
  unfold censusExpiry
  split
  · rfl
  · have appended : ∀ (l : List Entry) (x : State), (l.foldl (fun a e => appendLog e a) x).pending = x.pending :=
      fun l x => foldl_keeps State.pending _ (fun a e => pending_appendLog a e) l x
    have counted : ∀ x : State, (allTenants.foldl (fun a t => censusTenant t a) x).pending = x.pending :=
      fun x => foldl_keeps State.pending _ (fun a t => pending_censusTenant a t) _ x
    dsimp only
    rw [pending_finish, appended, pending_wakeStep, pending_countHoldOffs, counted]

/-! ### Carriers, the store, resets and start-up -/

@[simp] theorem pending_carrierEvent (t : Tenant) (k : Sector) (lock : Bool) : (carrierEvent t k lock s).pending = s.pending := by
  unfold carrierEvent
  dsimp only
  split
  · simp [setPresence]
  · rfl

@[simp] theorem pending_liveWrite (p : PageNo) (rs : List StoreRecord) : (liveWrite p rs s).pending = s.pending := by
  have rebound : ∀ x : State, (rebindPage s p x).pending = x.pending := fun x => by
    refine foldl_keeps State.pending _ (fun a z => ?_) _ x
    split
    · rfl
    · rw [rebind_eq]
  rw [liveWrite, pending_passes, rebound, copyRecords_eq]

@[simp] theorem pending_writeCompletion : (writeCompletion s).pending = s.pending := by
  unfold writeCompletion
  split
  · dsimp only
    split <;> simp
  · rfl

@[simp] theorem pending_lockCompletion : (lockCompletion s).pending = s.pending := by
  unfold lockCompletion
  split <;> rfl

@[simp] theorem pending_hardwareReset : (hardwareReset s).pending = s.pending := by
  rw [hardwareReset_eq, interruptStore_eq]
  rfl

@[simp] theorem pending_startUp : (startUp s).pending = s.pending := by
  unfold startUp
  split
  · rfl
  · have appended : ∀ (l : List PageNo) (x : State),
        (l.foldl (fun a p => appendLog (Entry.pageInvalid a.seconds p) a) x).pending = x.pending := fun l x =>
      foldl_keeps State.pending _ (fun a p => pending_appendLog a _) l x
    dsimp only
    rw [evalLog, State.modPort_pending, appended, startedPart]

/-! ### Octets on a port -/

section

variable {s}

@[simp] theorem pending_with1 {f : Byte → State → State} (h : ∀ a, (f a s).pending = s.pending) (os : List Byte) :
    (with1 os f s).pending = s.pending := with1_kept (P := fun x => x.pending = s.pending) h os rfl

@[simp] theorem pending_with2 {f : Byte → Byte → State → State} (h : ∀ a b, (f a b s).pending = s.pending)
    (os : List Byte) : (with2 os f s).pending = s.pending := with2_kept (P := fun x => x.pending = s.pending) h os rfl

@[simp] theorem pending_with3 {f : Byte → Byte → Byte → State → State} (h : ∀ a b c, (f a b c s).pending = s.pending)
    (os : List Byte) : (with3 os f s).pending = s.pending := with3_kept (P := fun x => x.pending = s.pending) h os rfl

end

@[simp] theorem pending_completeTenant (t : Tenant) (c : Command) (os : List Byte) :
    (completeTenant t c os s).pending = s.pending := by
  cases c with
  | setSpreading =>
    unfold completeTenant with8
    dsimp only
    split <;> simp
  | _ => simp [completeTenant]

@[simp] theorem pending_completeVenue (c : Command) (os : List Byte) : (completeVenue c os s).pending = s.pending := by
  cases c with
  | setSupervision =>
    unfold completeVenue with4
    dsimp only
    split <;> simp
  | writeStorePage =>
    unfold completeVenue withPage
    dsimp only
    split <;> simp
  | _ => simp [completeVenue]

@[simp] theorem pending_complete (p : Port) (c : Command) (os : List Byte) : (complete p c os s).pending = s.pending := by
  cases p <;> simp [complete]

@[simp] theorem pending_applyElement (p : Port) (w : WriteTo) (os : List Byte) :
    (applyElement p w os s).pending = s.pending := by
  unfold applyElement
  split
  · simp
  · simp
  · simp
  · simp
  · next i => exact pending_with1 (fun b => pending_weightElement _ i b) os
  · rfl

@[simp] theorem pending_takeLeading (p : Port) (c : Command) (b : Byte) : (takeLeading p c b s).pending = s.pending := by
  unfold takeLeading
  dsimp only
  split
  · split <;> rfl
  · split <;> rfl
  · split <;> rfl
  · rfl

@[simp] theorem pending_countOctet (p : Port) (r : ReadFrom) (held : Option (List Byte)) (pos : Nat) :
    (countOctet p r held pos s).pending = s.pending := by
  unfold countOctet
  split
  · rfl
  · dsimp only
    split
    · rfl
    · split <;> rfl

@[simp] theorem pending_takeParam (p : Port) (b : Byte) : (takeParam p b s).pending = s.pending := by
  unfold takeParam
  split
  · rfl
  · dsimp only
    split <;> simp
  · simp
  · dsimp only
    split <;> simp
  · simp

@[simp] theorem pending_acceptCode (p : Port) (c : Command) : (acceptCode p c s).pending = s.pending := by
  have read : ∀ x : State, (takeFault p x).pending = x.pending := fun x => by
    unfold takeFault
    split <;> simp
  have column : ∀ c f (x : State), (beginColumnRead p c f x).pending = x.pending := fun c f x => by
    cases p <;> rfl
  have loads : ∀ x : State, (beginLoads p x).pending = x.pending := fun x => by
    cases p <;> rfl
  cases c with
  | readFault => exact read _
  | readPlan => exact column _ _ _
  | readGrants => exact column _ _ _
  | readLoads => exact loads _
  | _ => rfl

@[simp] theorem pending_takeCode (p : Port) (b : Byte) : (takeCode p b s).pending = s.pending := by
  unfold takeCode
  dsimp only
  split
  · rfl
  · split <;> simp

@[simp] theorem pending_beginOctet (p : Port) : (beginOctet p s).pending = s.pending := by
  rw [beginOctet_atFirstBit, State.modPort_pending]

@[simp] theorem pending_takeOctet (p : Port) (o : Bool × Byte) : (takeOctet p s o).pending = s.pending := by
  unfold takeOctet present
  dsimp only
  split
  · rfl
  · split <;> simp

@[simp] theorem pending_clockBits (p : Port) (bits : List LineBit) : (clockBits p bits s).pending = s.pending := by
  have taken : ∀ os x, (List.foldl (takeOctet p) x os).pending = x.pending := fun os x =>
    foldl_keeps State.pending _ (fun a o => pending_takeOctet a p o) os x
  unfold clockBits clearOut
  split
  · rfl
  · split
    · rfl
    · unfold takeBits beginNext
      dsimp only
      split <;> simp [taken]

end

/-- Every event leaves the commands behind it waiting. -/
theorem Event.pending {s t : State} (e : Event s t) : t.pending = s.pending := by
  cases e with
  | burst c p b => cases b <;> exact pending_clockBits s p _
  | element p c => exact pending_clockBits s p _
  | code p b c => exact pending_clockBits s p _
  | hardwareReset => exact pending_hardwareReset s
  | startUp => exact pending_startUp s
  | selectRise p => rfl
  | selectFall p => rfl
  | rampTimer => exact pending_rampExpiry s
  | censusTimer => exact pending_censusExpiry s
  | pollTimer => exact pending_pollExpiry s
  | pollSent f => exact pending_pollEnd s f
  | chars f cs => exact pending_takeChars s f cs
  | replyTimer f => exact pending_replyExpiry s f
  | frameSent f => exact pending_frameEnd s f
  | lockLost f => exact pending_lockLost s f
  | lockBack f => exact pending_lockBack s f
  | carrier t k lock => exact pending_carrierEvent s t k lock
  | written => exact pending_writeCompletion s
  | locked => exact pending_lockCompletion s
  | second => rfl

end Sys2Proof.Machine

namespace Sys2Proof.Machine.Settled

/-- Settles O2: an empty queue idles, and every command is an event (`exec_event`), which leaves the commands behind it
(`Event.pending`). -/
theorem neverStops : Obligations.NeverStops := by
  refine ⟨fun s empty => ?_, fun c s => ?_⟩
  · unfold step
    rw [empty]
  · obtain ⟨t, run, event⟩ := exec_event c s
    exact ⟨t, run, event.pending⟩

end Sys2Proof.Machine.Settled

namespace Sys2Proof.Machine

/-- A step where a command waits runs the one at the front, on the state that holds what waits behind it. -/
theorem step_of_pending_cons {s : State} {c : Instr} {rest : List Instr} (waiting : s.pending = c :: rest) :
    step s = exec c { s with pending := rest } := by
  unfold step
  rw [waiting]

end Sys2Proof.Machine

namespace Sys2Proof.Machine.Settled

/-- Settles O1: the command put at the front is the one that a step takes (`step_of_pending_cons`), and the queue that
`step` leaves overwrites the one it was taken from. -/
theorem stepRunsFront : Obligations.StepRunsFront := fun c rest s =>
  step_of_pending_cons (s := { s with pending := c :: rest }) rfl

end Sys2Proof.Machine.Settled
